-- ==== Sys2Proof/Word.lean ====
section
/-! DEFINITION. The word type of the FPDC: every host-visible register and the command word are 64 bits wide
(`XLEN` = 64; 10_state.md R12, 30_encoding.md R45). -/

namespace Sys2Proof

/-- The 64-bit value of a register or of a command word (R12, R45). Bit 63 is the most significant (R31). -/
abbrev Word := BitVec 64

end Sys2Proof
end

