-- ==== Sys2Proof/Syntax.lean ====
section
/-! DEFINITION. The command set FPDC-CMD 1.0 as syntax: one constructor per row of spec/opcode_table.json
(30_encoding.md R46, 46_command_set_laws.md R160). Host transactions that are not commands (register reads and writes,
the reset event) are no instructions; they stand in Machine/State.lean. -/

namespace Sys2Proof

/-- The three commands. `slot` is the `SLOT` field, an unsigned immediate (R45, R49); `WellFormed` bounds it. -/
inductive Instr where
  /-- `DESCLOAD slot`: validate `DSTG` and install it in descriptor slot `slot` (R58). -/
  | descload (slot : Nat)
  /-- `DECODE slot`: decode `OPA` under the descriptor in slot `slot` (R115). -/
  | decode (slot : Nat)
  /-- `CLASSIFY`: classify the fields in the operand registers (R95). -/
  | classify
  deriving DecidableEq, Repr

end Sys2Proof
end

