-- ==== Sys2Proof/WellFormed.lean ====
section
/-! DEFINITION. Which terms of `Instr` stand for a command word: those whose slot number fits the 4-bit `SLOT` field
(30_encoding.md R45). A slot number of `NDESC` or more is well formed (R47: a legal encoding that raises `ERR_SLOT`). -/

namespace Sys2Proof

/-- The slot number fits the 4-bit `SLOT` field, 0 to 15 (R45). -/
def slotFits (slot : Nat) : Bool := decide (slot < 16)

/-- The well-formed commands (R45, R46). -/
def Instr.wf : Instr → Bool
  | .descload slot => slotFits slot
  | .decode slot => slotFits slot
  | .classify => true

end Sys2Proof
end

