-- ==== Sys2Proof/Decode.lean ====
section
/-! DEFINITION. From a command word to a command and back (30_encoding.md R45 to R47, R55). The decoder is total: a word
that matches no row of R46 is rejected with the name of its defect. -/

namespace Sys2Proof

/-- Why a command word is illegal (R47). Every one raises `ERR_ILLEGAL`; the names are the model's. -/
inductive DecodeError where
  /-- A nonzero bit among the reserved bits 63:12. -/
  | reservedBits
  /-- `OPC` is 0x00 or 0x04 to 0xFF. -/
  | unassignedOpcode
  /-- `OPC` is 0x03 and `SLOT` is not 0. -/
  | classifyWithSlot
  deriving DecidableEq, Repr

/-- `OPC`, bits 7:0 (R45). -/
def cmdOpc (c : Word) : BitVec 8 := c.extractLsb' 0 8

/-- `SLOT`, bits 11:8 (R45). -/
def cmdSlot (c : Word) : BitVec 4 := c.extractLsb' 8 4

/-- `ZERO`, bits 63:12 (R45). -/
def cmdZero (c : Word) : BitVec 52 := c.extractLsb' 12 52

/-- The command a word encodes: by `c[7:0]` after checking `c[63:12]` = 0 (R55), with the opcodes of R46; every other
word is illegal (R47). -/
def decodeWord (c : Word) : Except DecodeError Instr :=
  if cmdZero c ≠ 0 then .error .reservedBits
  else if cmdOpc c = 0x01 then .ok (.descload (cmdSlot c).toNat)
  else if cmdOpc c = 0x02 then .ok (.decode (cmdSlot c).toNat)
  else if cmdOpc c = 0x03 then
    if cmdSlot c = 0 then .ok .classify else .error .classifyWithSlot
  else .error .unassignedOpcode

/-- Format `C` from its fields (R45). -/
def encodeFields (opc : BitVec 8) (slot : Nat) : Word := BitVec.ofNat 64 (opc.toNat + slot <<< 8)

/-- The command word of a command (R46); meant for well-formed commands. -/
def encode : Instr → Word
  | .descload slot => encodeFields 0x01 slot
  | .decode slot => encodeFields 0x02 slot
  | .classify => encodeFields 0x03 0

/-- The command word that `nbits` bits `w` of the opcode table stand for: the bits above `nbits` are 0. The word is
written whole, so no byte order enters (20_memory.md R31; log 14). -/
def tableWord (nbits w : Nat) : Word := BitVec.ofNat 64 (w % 2 ^ nbits)

/-- The command the decoder reads from a table row's bits, numbered as the table numbers them. -/
def decodeTableWord (nbits w : Nat) : Option Instr :=
  match decodeWord (tableWord nbits w) with
  | .ok i => some i
  | .error _ => none

end Sys2Proof
end

