-- ==== Sys2Proof/Machine/Bits.lean ====
section
/-! DEFINITION. The bit-vector notation of 00_scope.md R7 on natural numbers, for patterns whose width varies with the
descriptor: slices, all-ones fields, bit length, and the two's complement conversions. -/

namespace Sys2Proof.Machine

/-- The `width` bits of `v` from bit `lo` upwards: `v[lo + width - 1 : lo]` of R7; 0 when `width` is 0. -/
def bitField (v lo width : Nat) : Nat := (v >>> lo) % 2 ^ width

/-- `ones(n)` of R7. -/
def ones (n : Nat) : Nat := 2 ^ n - 1

/-- `bitlen(a)` of R7: the number of bits of `a`, 0 for 0. -/
def bitlen (a : Nat) : Nat := if a = 0 then 0 else Nat.log2 a + 1

/-- `signed_32` of R7. -/
def signed32 (v : BitVec 32) : Int := v.toInt

/-- `twos_64` of R7: the width-64 two's complement of an integer. -/
def twos64 (i : Int) : Word := BitVec.ofInt 64 i

/-- A truth value as a bit. -/
def bit (b : Bool) : Nat := if b then 1 else 0

end Sys2Proof.Machine
end

