-- ==== Sys2Proof/Config.lean ====
section
/-! DEFINITION. The parameters of the FPDC (00_scope.md R6, 20_memory.md R37) and the one free value, an opaque
constant: nothing can be proved of it beyond its type. -/

namespace Sys2Proof.Config

/-- `NDESC` of the machine after reset: the default of R6. The model itself takes `NDESC` as the length of the
descriptor table, so what is stated of a state holds for every `NDESC` (log 2). -/
def ndescDefault : Nat := 8

/-- The values R6 admits for `NDESC`: 1 to 16. -/
abbrev ndescAllowed (n : Nat) : Prop := 1 ≤ n ∧ n ≤ 16

/-- The two byte orders a bus wrapper may have. -/
inductive ByteOrder where
  | little
  | big
  deriving DecidableEq, Repr, Inhabited

/-- `BUS_ENDIAN` (R6, R31): OPEN; no rule reads it (log 15). -/
opaque busEndian : ByteOrder

/-- `FPDC_BASE` (R37): OPEN; no rule reads it (log 15). -/
opaque fpdcBase : Nat

/-- `FPDC_STRIDE` (R37): OPEN; no rule reads it (log 15). -/
opaque fpdcStride : Nat

/-- `NUNITS - 1` (R6, R140): OPEN; no rule reads it, and the model is one of the units (log 1). -/
opaque nunitsPred : Nat

/-- `NUNITS` (R6): at least 1. -/
def nunits : Nat := nunitsPred + 1

/-- How many patterns a free error can be: those of the finite, nonzero, non-negative binary64 values, 1 to
0x7FEFFFFFFFFFFFFF. These are the limits the spec sets where the stored value is finite and is not the operand: finite
with sign bit 0 (44_error_computer.md R104) and not 0 (46_command_set_laws.md R162). -/
abbrev freeErrorCount : Nat := 0x7FEFFFFFFFFFFFFF

/-- FREE VALUE (log 9). The absolute error for a finite operand (first argument) and a finite stored value (second
argument) whose exact difference is no binary64 value, as one less than the number of its pattern: R106 covers
representable differences only. -/
opaque errorOfInexactDifference : Word → Word → Fin freeErrorCount

end Sys2Proof.Config
end

