-- ==== Sys2Proof/Machine/State.lean ====
section
/-! DEFINITION. The architectural state (10_state.md R10 to R29), the host's side of the port (20_memory.md R32, R33;
30_encoding.md R53), the reasons a step can stop, and the state after reset (R29, 70_reset_and_hazards.md R150). -/

namespace Sys2Proof.Machine

/-- The native widths a descriptor may have (00_scope.md R6): 16 "half", 32 "single", 64 "double" (30_encoding.md
R41). -/
inductive NativeWidth where
  | w16
  | w32
  | w64
  deriving DecidableEq, Repr

/-- A validated FormatDescriptor, the content of a valid slot (10_state.md R16). `width` is `TW`, which a valid slot
holds as 16, 32 or 64 (log 6). Name and description text are not held (40_descriptor.md R64). -/
structure Descriptor where
  /-- `TW`: the native width `W` at which operands are packed (R60). -/
  width : NativeWidth
  /-- `EW`: exponent bit width. -/
  ew : BitVec 7
  /-- `MW`: mantissa bit width. -/
  mw : BitVec 7
  /-- `TP`: truncation present. -/
  tp : Bool
  /-- `T`: truncation width, not read when `TP` = 0. -/
  t : BitVec 7
  /-- `BIAS`: signed exponent bias, two's complement. -/
  bias : BitVec 32
  deriving DecidableEq, Repr

/-- The error codes of 60_exceptions.md R126. -/
inductive ErrCode where
  /-- Code 1: width sum or truncation range of a descriptor (R57). -/
  | config
  /-- Code 2: native width not 16, 32 or 64 (R57). -/
  | unsupported
  /-- Code 3: reserved for a host-side wrapper; the unit never writes it (R127). -/
  | invalidInput
  /-- Code 4: the command word matches no row of the opcode map (R47). -/
  | illegal
  /-- Code 5: slot out of range, already valid (`DESCLOAD`) or empty (`DECODE`). -/
  | slot
  /-- Code 6: NaN operand (`DECODE`), or fields no rule classifies (`CLASSIFY`). -/
  | domain
  deriving DecidableEq, Repr

/-- The host's transactions: the lines `wr`, `rd` and `reset` of the host-script notation (30_encoding.md R53). The
lines `descload`, `decode` and `classify` are writes of register 8 (R53; Machine/Script.lean). -/
inductive Txn where
  /-- `RegRead(n)` (20_memory.md R32). -/
  | read (n : Fin 32)
  /-- `RegWrite(n, v)` (20_memory.md R33). -/
  | write (n : Fin 32) (v : Word)
  /-- The reset event (70_reset_and_hazards.md R150). -/
  | reset
  deriving DecidableEq, Repr

/-- The machine never stops with a fault: every command ends in a success or an error completion, "There is no third
outcome" (60_exceptions.md R123). So the type has no constructor. -/
inductive Fault
  deriving DecidableEq, Repr

/-- Why a step has no meaning. -/
inductive Refusal where
  /-- Raised by no arm of `exec` today: an instruction still without a meaning, by its mnemonic. Safe. -/
  | notModelled (mnemonic : String)
  /-- Raised by the port: a read or write of a register number that is not in the map (20_memory.md R35 (a)). Safe. -/
  | unimplementedRegister (n : Fin 32)
  /-- Raised by the port: a write of a read-only register (20_memory.md R35 (b)). Safe. -/
  | writeOfReadOnly (n : Fin 32)
  /-- Raised by the port: a read of the write-only register `CMD` (20_memory.md R35 (c)). Safe. -/
  | readOfWriteOnly (n : Fin 32)
  deriving DecidableEq, Repr

/-- The state of the unit (10_state.md R10), and beside it the host's side of the run: the transactions not yet
performed and the values its reads have returned (R11, R158; log 3, log 16). -/
structure State where
  /-- `OPA` (R13). -/
  opa : Word
  /-- `DSTG` (R14). -/
  dstg : Word
  /-- `CEXP` (R15). -/
  cexp : Word
  /-- `CMAN` (R15). -/
  cman : Word
  /-- `CEW` (R15). -/
  cew : Word
  /-- `CBIAS` (R15). -/
  cbias : Word
  /-- `DT` (R16): slot `k` is entry `k`, `none` when `VALID` = 0 (log 5); the length is `NDESC`. -/
  table : List (Option Descriptor)
  /-- `STATUS` (R18). -/
  status : Word
  /-- `RSIGN` (R20). -/
  rsign : Word
  /-- `REXP` (R21). -/
  rexp : Word
  /-- `RMAN` (R22). -/
  rman : Word
  /-- `RFMT` (R23). -/
  rfmt : Word
  /-- `RCLS` (R24). -/
  rcls : Word
  /-- `RTEXP` (R25). -/
  rtexp : Word
  /-- `RSV` (R26). -/
  rsv : Word
  /-- `RERR` (R27). -/
  rerr : Word
  /-- The host script still to be executed, next transaction first (R53, R158). -/
  script : List Txn
  /-- The values the script's reads returned, oldest first (R53, R158). -/
  observed : List Word
  deriving DecidableEq, Repr

/-- The state after reset of a unit with `ndesc` descriptor slots (R29, R150), before any host transaction. -/
def State.resetOf (ndesc : Nat) : State where
  opa := 0
  dstg := 0
  cexp := 0
  cman := 0
  cew := 0
  cbias := 0
  table := List.replicate ndesc none
  status := 0
  rsign := 0
  rexp := 0
  rman := 0
  rfmt := 0
  rcls := 0
  rtexp := 0
  rsv := 0
  rerr := 0
  script := []
  observed := []

/-- The machine right after reset: R29 with the default `NDESC` of R6, and no host transaction yet (log 2, log 13). -/
def State.reset : State := State.resetOf Config.ndescDefault

end Sys2Proof.Machine
end

