-- ==== Sys2Proof/Machine/Operands.lean ====
section
/-! DEFINITION. Operand assembly: the fields of `DSTG` (30_encoding.md R48), of `CEW` and `CBIAS` (R49), the fields and
predicates of a binary64 pattern (R43), and the native layouts (R41). -/

namespace Sys2Proof.Machine

/-! ### The native layouts (R41) -/

/-- `W`, in bits. -/
def NativeWidth.bits : NativeWidth → Nat
  | .w16 => 16
  | .w32 => 32
  | .w64 => 64

/-- `ew_n`: the exponent width of the native layout. -/
def NativeWidth.ewn : NativeWidth → Nat
  | .w16 => 5
  | .w32 => 8
  | .w64 => 11

/-- `mw_n`: the mantissa width of the native layout. -/
def NativeWidth.mwn : NativeWidth → Nat
  | .w16 => 10
  | .w32 => 23
  | .w64 => 52

/-- `b_n`: the bias of the native layout. -/
def NativeWidth.biasn : NativeWidth → Nat
  | .w16 => 15
  | .w32 => 127
  | .w64 => 1023

/-- The native width a total width implies, where it is supported (40_descriptor.md R57). -/
def nativeWidth? (tw : Nat) : Option NativeWidth :=
  if tw = 16 then some .w16 else if tw = 32 then some .w32 else if tw = 64 then some .w64 else none

/-! ### The fields of `DSTG` (R48) -/

/-- `TW`, bits 6:0. -/
def dstgTW (d : Word) : BitVec 7 := d.extractLsb' 0 7

/-- `EW`, bits 14:8. -/
def dstgEW (d : Word) : BitVec 7 := d.extractLsb' 8 7

/-- `MW`, bits 22:16. -/
def dstgMW (d : Word) : BitVec 7 := d.extractLsb' 16 7

/-- `TP`, bit 23. -/
def dstgTP (d : Word) : Bool := d.getLsbD 23

/-- `T`, bits 30:24. -/
def dstgT (d : Word) : BitVec 7 := d.extractLsb' 24 7

/-- `BIAS`, bits 63:32. -/
def dstgBias (d : Word) : BitVec 32 := d.extractLsb' 32 32

/-! ### The operands of `CLASSIFY` (R49) -/

/-- `CEW`, bits 6:0, unsigned. -/
def cewWidth (r : Word) : Nat := (r.extractLsb' 0 7).toNat

/-- `signed_32(CBIAS[31:0])`. -/
def cbiasValue (r : Word) : Int := signed32 (r.extractLsb' 0 32)

/-! ### A binary64 pattern (R41, R43) -/

/-- The sign bit, bit 63. -/
def sign64 (p : Word) : Bool := p.getLsbD 63

/-- The exponent field `e`, bits 62:52. -/
def exp64 (p : Word) : Nat := (p.extractLsb' 52 11).toNat

/-- The mantissa field `f`, bits 51:0. -/
def man64 (p : Word) : Nat := (p.extractLsb' 0 52).toNat

/-- `isNaN64` (R43). -/
def isNaN64 (p : Word) : Bool := decide (exp64 p = 2047) && decide (man64 p ≠ 0)

/-- `isInf64` (R43). -/
def isInf64 (p : Word) : Bool := decide (exp64 p = 2047) && decide (man64 p = 0)

/-- `isZero64` (R43). -/
def isZero64 (p : Word) : Bool := decide (exp64 p = 0) && decide (man64 p = 0)

/-- `isFinite64` (R43). -/
def isFinite64 (p : Word) : Bool := decide (exp64 p ≠ 2047)

/-- +inf in binary64: 0x7FF0000000000000. -/
def plusInf64 : Word := 0x7FF0000000000000

end Sys2Proof.Machine
end

