-- ==== Sys2Proof/Machine/Flags.lean ====
section
/-! DEFINITION. The status and category words: `STATUS` (10_state.md R18), the error codes (60_exceptions.md R126), the
category codes (30_encoding.md R51), `RCLS` (R24) and `RFMT` (R23), each with the accessors of its fields. -/

namespace Sys2Proof.Machine

/-- The source's categories (R51). -/
inductive Category where
  | zero
  | subnormal
  | normal
  | infinity
  | nan
  deriving DecidableEq, Repr

/-- A result of the Classifier (43_classifier.md R94): `none` means "not defined". -/
structure Classification where
  cat : Category
  /-- The implicit bit, where the source defines one (R90). -/
  impl : Option Bool
  /-- The true exponent, where the source defines one (R91). -/
  texp : Option Int
  deriving DecidableEq, Repr

/-- The 4-bit code of an error (R126). -/
def ErrCode.code : ErrCode → Nat
  | .config => 1
  | .unsupported => 2
  | .invalidInput => 3
  | .illegal => 4
  | .slot => 5
  | .domain => 6

/-- The 3-bit code of a category (R51); code 0 is "none". -/
def Category.code : Category → Nat
  | .zero => 1
  | .subnormal => 2
  | .normal => 3
  | .infinity => 4
  | .nan => 5

/-! ### `STATUS` (R18) -/

/-- `STATUS` from its fields: `RV` bit 0, `ERR` bits 7:4, `OVF` bit 8 (R18). -/
def statusWord (rv : Bool) (err : Nat) (ovf : Bool) : Word :=
  BitVec.ofNat 64 (bit rv + err <<< 4 + bit ovf <<< 8)

/-- `STATUS.RV`, bit 0. -/
def statusRV (w : Word) : Bool := w.getLsbD 0

/-- `STATUS.ERR`, bits 7:4. -/
def statusERR (w : Word) : BitVec 4 := w.extractLsb' 4 4

/-- `STATUS.OVF`, bit 8. -/
def statusOVF (w : Word) : Bool := w.getLsbD 8

/-! ### `RCLS` (R24) -/

/-- `RCLS` of a classification: `CAT` bits 2:0, `IMPL` bit 4, `IMPL_V` bit 5, `TEXP_V` bit 6; `IMPL` is 0 when it is
not defined (R24, R115). -/
def rclsWord (c : Classification) : Word :=
  BitVec.ofNat 64 (c.cat.code + bit (c.impl.getD false) <<< 4 + bit c.impl.isSome <<< 5 + bit c.texp.isSome <<< 6)

/-- `RTEXP` of a classification: `twos_64(texp)`, or 0 when it is not defined (R25, R91). -/
def rtexpWord (c : Classification) : Word :=
  match c.texp with
  | some x => twos64 x
  | none => 0

/-- `RCLS.CAT`, bits 2:0. -/
def rclsCAT (w : Word) : BitVec 3 := w.extractLsb' 0 3

/-- `RCLS.IMPL`, bit 4. -/
def rclsIMPL (w : Word) : Bool := w.getLsbD 4

/-- `RCLS.IMPL_V`, bit 5. -/
def rclsIMPLV (w : Word) : Bool := w.getLsbD 5

/-- `RCLS.TEXP_V`, bit 6. -/
def rclsTEXPV (w : Word) : Bool := w.getLsbD 6

/-! ### `RFMT` (R23) -/

/-- `RFMT` from its fields: `EW` + (`KM` << 8) + (`L` << 16) + (`W` << 24) (R23, R115). -/
def rfmtWord (ew km l w : Nat) : Word := BitVec.ofNat 64 (ew + km <<< 8 + l <<< 16 + w <<< 24)

/-- `RFMT.EW`, bits 6:0. -/
def rfmtEW (w : Word) : BitVec 7 := w.extractLsb' 0 7

/-- `RFMT.KM`, bits 14:8. -/
def rfmtKM (w : Word) : BitVec 7 := w.extractLsb' 8 7

/-- `RFMT.L`, bits 22:16. -/
def rfmtL (w : Word) : BitVec 7 := w.extractLsb' 16 7

/-- `RFMT.W`, bits 30:24. -/
def rfmtW (w : Word) : BitVec 7 := w.extractLsb' 24 7

end Sys2Proof.Machine
end

