-- ==== Sys2Proof/Machine/Classifier.lean ====
section
/-! DEFINITION. The source's Classifier (43_classifier.md R88 to R94). -/

namespace Sys2Proof.Machine

/-- `EMAX = 2^EW - 1` (R88). -/
def emax (ew : Nat) : Nat := 2 ^ ew - 1

/-- `classify(E, M, EW, BIAS)`, its five rules in the source's order (R89, R94). It requires `E ≤ EMAX`, which `CLASSIFY`
checks (R95) and every `EW`-bit field satisfies (R93), so the last rule needs no test of its own. -/
def classify (e m ew : Nat) (bias : Int) : Classification :=
  if e = 0 ∧ m = 0 then { cat := .zero, impl := some false, texp := none }
  else if e = 0 then { cat := .subnormal, impl := some false, texp := some (1 - bias) }
  else if e < emax ew then { cat := .normal, impl := some true, texp := some ((e : Int) - bias) }
  else if m = 0 then { cat := .infinity, impl := none, texp := none }
  else { cat := .nan, impl := none, texp := none }

end Sys2Proof.Machine
end

