-- ==== Sys2Proof/Machine/Ops.lean ====
section
/-! DEFINITION. The operations every command and the port share: the register file (10_state.md R12, 20_memory.md R32,
R33), the descriptor table (R16, R28), the error completion, which is the FPDC's taking of an exception
(60_exceptions.md R131), and the start of a success completion (R132). There is no return from an exception: "There is
no trap return, no handler and no nesting" (R133). -/

namespace Sys2Proof.Machine

/-! ### The register map (R12) -/

/-- The implemented registers (R12). -/
inductive Reg where
  | opa | dstg | cexp | cman | cew | cbias
  | cmd | status | dvalid
  | rsign | rexp | rman | rfmt | rcls | rtexp | rsv | rerr
  deriving DecidableEq, Repr

/-- The host's access rights to a register (R12). -/
inductive Access where
  | readWrite
  | readOnly
  | writeOnly
  deriving DecidableEq, Repr

/-- The register a number names; `none` for the unimplemented numbers 6, 7, 11 to 15 and 24 to 31 (R12). -/
def Reg.ofNum? (n : Fin 32) : Option Reg :=
  match n.val with
  | 0 => some .opa
  | 1 => some .dstg
  | 2 => some .cexp
  | 3 => some .cman
  | 4 => some .cew
  | 5 => some .cbias
  | 8 => some .cmd
  | 9 => some .status
  | 10 => some .dvalid
  | 16 => some .rsign
  | 17 => some .rexp
  | 18 => some .rman
  | 19 => some .rfmt
  | 20 => some .rcls
  | 21 => some .rtexp
  | 22 => some .rsv
  | 23 => some .rerr
  | _ => none

/-- The number of a register (R12). -/
def Reg.num : Reg → Fin 32
  | .opa => 0
  | .dstg => 1
  | .cexp => 2
  | .cman => 3
  | .cew => 4
  | .cbias => 5
  | .cmd => 8
  | .status => 9
  | .dvalid => 10
  | .rsign => 16
  | .rexp => 17
  | .rman => 18
  | .rfmt => 19
  | .rcls => 20
  | .rtexp => 21
  | .rsv => 22
  | .rerr => 23

/-- The column "host access" of R12. -/
def Reg.access : Reg → Access
  | .opa | .dstg | .cexp | .cman | .cew | .cbias => .readWrite
  | .cmd => .writeOnly
  | .status | .dvalid | .rsign | .rexp | .rman | .rfmt | .rcls | .rtexp | .rsv | .rerr => .readOnly

/-- The bits of a register that are neither hardwired 0 nor reserved (R12, R14, R15, R18, R20, R23, R24). A register of
64 used bits, `DVALID` (whose value is a view, R28) and `CMD` have them all. -/
def Reg.usedBits : Reg → Word
  | .dstg => 0xFFFFFFFF7FFF7F7F
  | .cew => 0x000000000000007F
  | .cbias => 0x00000000FFFFFFFF
  | .status => 0x00000000000001F1
  | .rsign => 0x0000000000000001
  | .rfmt => 0x000000007F7F7F7F
  | .rcls => 0x0000000000000077
  | .opa | .cexp | .cman | .cmd | .dvalid | .rexp | .rman | .rtexp | .rsv | .rerr => 0xFFFFFFFFFFFFFFFF

/-! ### The descriptor table (R16, R28) -/

/-- `NDESC`: the number of slots (log 2). -/
def State.ndesc (s : State) : Nat := s.table.length

/-- The content of slot `k`: `none` when the slot is empty (`VALID` = 0) or does not exist. -/
def State.descriptor? (s : State) (k : Nat) : Option Descriptor := (s.table[k]?).join

/-- `DT[k].VALID` (R16). -/
def State.slotValid (s : State) (k : Nat) : Bool := (s.descriptor? k).isSome

/-- The valid bits of a table as a number, slot 0 in bit 0. -/
def validBits : List (Option Descriptor) → Nat
  | [] => 0
  | d :: rest => bit d.isSome + 2 * validBits rest

/-- `DVALID` (R28): a view of the table. -/
def State.dvalid (s : State) : Word := BitVec.ofNat 64 (validBits s.table)

/-- Write descriptor `d` into slot `k` and set its `VALID` (R58). -/
def State.installSlot (s : State) (k : Nat) (d : Descriptor) : State := { s with table := s.table.set k (some d) }

/-! ### Reading and writing the register file (R32, R33) -/

/-- The value a register holds. `CMD` stores nothing (R17). -/
def State.stored (s : State) : Reg → Word
  | .opa => s.opa
  | .dstg => s.dstg
  | .cexp => s.cexp
  | .cman => s.cman
  | .cew => s.cew
  | .cbias => s.cbias
  | .cmd => 0
  | .status => s.status
  | .dvalid => s.dvalid
  | .rsign => s.rsign
  | .rexp => s.rexp
  | .rman => s.rman
  | .rfmt => s.rfmt
  | .rcls => s.rcls
  | .rtexp => s.rtexp
  | .rsv => s.rsv
  | .rerr => s.rerr

/-- The value a read of a register returns, "with hardwired-zero and reserved bits reading 0" (R32; log 17). -/
def State.readReg (s : State) (r : Reg) : Word := s.stored r &&& r.usedBits

/-- A host write of an operand register: "replaces the register's writable bits"; "hardwired-zero bits ignore the write"
(R33). Registers the host cannot write this way are unchanged. -/
def State.writeReg (s : State) (r : Reg) (v : Word) : State :=
  match r with
  | .opa => { s with opa := v &&& Reg.usedBits .opa }
  | .dstg => { s with dstg := v &&& Reg.usedBits .dstg }
  | .cexp => { s with cexp := v &&& Reg.usedBits .cexp }
  | .cman => { s with cman := v &&& Reg.usedBits .cman }
  | .cew => { s with cew := v &&& Reg.usedBits .cew }
  | .cbias => { s with cbias := v &&& Reg.usedBits .cbias }
  | .cmd | .status | .dvalid | .rsign | .rexp | .rman | .rfmt | .rcls | .rtexp | .rsv | .rerr => s

/-! ### Completion of a command (R131, R132) -/

/-- `x[16..23] <- 0`: what every command does first (R19, R131, R132). -/
def State.clearResults (s : State) : State :=
  { s with rsign := 0, rexp := 0, rman := 0, rfmt := 0, rcls := 0, rtexp := 0, rsv := 0, rerr := 0 }

/-- `STATUS`, rewritten in full (R18). -/
def State.setStatus (s : State) (w : Word) : State := { s with status := w }

/-- ERROR COMPLETION, the FPDC's taking of an exception (R131): the eight result registers 0, `STATUS` = code << 4, and
nothing else changed. -/
def State.errorCompletion (s : State) (e : ErrCode) : State :=
  s.clearResults.setStatus (statusWord false e.code false)

/-! ### Reset (70_reset_and_hazards.md R150) -/

/-- The reset event: every register 0, every slot empty, as many slots as before. The host's own side, the rest of its
script and what it has observed, is not the unit's and stays (log 11). -/
def State.resetEvent (s : State) : State :=
  { State.resetOf s.ndesc with script := s.script, observed := s.observed }

end Sys2Proof.Machine
end

