-- ==== Sys2Proof/Machine/ClassifyCommand.lean ====
section
/-! DEFINITION. The `CLASSIFY` command (43_classifier.md R95). -/

namespace Sys2Proof.Machine

/-- The Classifier's result in `RCLS` and `RTEXP` (R95). -/
def State.writeClass (s : State) (c : Classification) : State := { s with rcls := rclsWord c, rtexp := rtexpWord c }

/-- `CLASSIFY` (R95): `ERR_DOMAIN` for `CEW > 63` and for `CEXP ≥ 2^CEW`; else `RCLS`, `RTEXP` and `STATUS` = 0x001, with
the other result registers 0. -/
def execClassify (s : State) : Host.Outcome State Fault Refusal :=
  if cewWidth s.cew > 63 then .next (s.errorCompletion .domain)
  else if s.cexp.toNat ≥ 2 ^ cewWidth s.cew then .next (s.errorCompletion .domain)
  else
    .next ((s.clearResults.writeClass
      (classify s.cexp.toNat s.cman.toNat (cewWidth s.cew) (cbiasValue s.cbias))).setStatus (statusWord true 0 false))

end Sys2Proof.Machine
end

