-- ==== Sys2Proof/Machine/Validate.lean ====
section
/-! DEFINITION. Validation of the FormatDescriptor staged in `DSTG` (40_descriptor.md R56, R57), and the `DESCLOAD`
command's copy of its fields (R58). -/

namespace Sys2Proof.Machine

/-- The first check of R57: `TW = 1 + EW + MW`, on integers. -/
def widthsConsistent (d : Word) : Bool :=
  decide ((dstgTW d).toNat = 1 + (dstgEW d).toNat + (dstgMW d).toNat)

/-- The second check of R57: if `TP` = 1 then `1 + EW < T < TW`. -/
def truncationInRange (d : Word) : Bool :=
  !dstgTP d || (decide (1 + (dstgEW d).toNat < (dstgT d).toNat) && decide ((dstgT d).toNat < (dstgTW d).toNat))

/-- `validate` (R57), in the order R130 fixes; on success, the native width that `TW` implies. -/
def validate (d : Word) : Except ErrCode NativeWidth :=
  if !widthsConsistent d then .error .config
  else if !truncationInRange d then .error .config
  else
    match nativeWidth? (dstgTW d).toNat with
    | none => .error .unsupported
    | some w => .ok w

/-- The fields of `DSTG`, copied into a slot; `T` is copied even when `TP` = 0 (R58). -/
def stagedDescriptor (w : NativeWidth) (d : Word) : Descriptor where
  width := w
  ew := dstgEW d
  mw := dstgMW d
  tp := dstgTP d
  t := dstgT d
  bias := dstgBias d

end Sys2Proof.Machine
end

