-- ==== Sys2Proof/Machine/Descload.lean ====
section
/-! DEFINITION. The `DESCLOAD` command (40_descriptor.md R58). -/

namespace Sys2Proof.Machine

/-- `DESCLOAD slot` (R58), its checks in the order of 60_exceptions.md R130: slot number, slot already valid (R59), then
`validate`. On success the slot holds the staged descriptor and `STATUS` is 0. -/
def execDescload (slot : Nat) (s : State) : Host.Outcome State Fault Refusal :=
  if s.ndesc ≤ slot then .next (s.errorCompletion .slot)
  else if s.slotValid slot then .next (s.errorCompletion .slot)
  else
    match validate s.dstg with
    | .error e => .next (s.errorCompletion e)
    | .ok w => .next ((s.clearResults.installSlot slot (stagedDescriptor w s.dstg)).setStatus (statusWord false 0 false))

end Sys2Proof.Machine
end

