-- ==== Sys2Proof/Machine/BitExtractor.lean ====
section
/-! DEFINITION. The source's BitExtractor (41_bit_extractor.md): packing to the native width with round-to-nearest
ties-to-even and the overflow substitution (R67 to R74), truncation (R75) and the field split (R76). Arithmetic is on
mathematical integers (46_command_set_laws.md R161). -/

namespace Sys2Proof.Machine

/-- A native pattern with the overflow flag of R74. -/
structure Packed where
  /-- `P`: the native pattern, below `2^W`. -/
  pattern : Nat
  /-- `ovf`: a finite operand became an infinity. -/
  ovf : Bool
  deriving DecidableEq, Repr

/-- The magnitude of the native infinity, `ones(ew) << mw`: 0x7C00 for 16 bits, 0x7F800000 for 32 (R68, R72, R73). -/
def NativeWidth.infMag (w : NativeWidth) : Nat := ones w.ewn <<< w.mwn

/-- A pattern of width `W` from its sign and its low `W - 1` bits (R71). -/
def NativeWidth.withSign (w : NativeWidth) (s : Bool) (mag : Nat) : Nat := bit s <<< (w.bits - 1) + mag

/-- `m` of R69: the integer significand of a finite nonzero operand. -/
def significand64 (v : Word) : Nat := if exp64 v = 0 then man64 v else 2 ^ 52 + man64 v

/-- `q` of R69: the operand's magnitude is `m × 2^q`. -/
def scale64 (v : Word) : Int := if exp64 v = 0 then -1074 else (exp64 v : Int) - 1075

/-- `x` of R69: the floor of log2 of the magnitude. -/
def leadExp64 (v : Word) : Int := scale64 v + bitlen (significand64 v) - 1

/-- `emin` of R69. -/
def NativeWidth.emin (w : NativeWidth) : Int := 1 - w.biasn

/-- `g` of R69: the exponent of the target's quantum at the operand's magnitude. -/
def quantumExp (w : NativeWidth) (v : Word) : Int := max (leadExp64 v) w.emin - w.mwn

/-- `sh` of R69: how many bits of `m` are rounded away. -/
def roundShift (w : NativeWidth) (v : Word) : Nat := (quantumExp w v - scale64 v).toNat

/-- Round-to-nearest, ties-to-even, of `m` at `sh` dropped bits (R70). -/
def roundNearestEven (m sh : Nat) : Nat :=
  let n := m >>> sh
  let rem := m % 2 ^ sh
  let half := 2 ^ (sh - 1)
  if rem > half ∨ (rem = half ∧ n % 2 = 1) then n + 1 else n

/-- `mag` of R71, before the comparison with infinity: a rounding carry runs into the exponent field. -/
def packedMag (w : NativeWidth) (v : Word) : Nat :=
  let n := roundNearestEven (significand64 v) (roundShift w v)
  if leadExp64 v ≥ w.emin then (leadExp64 v + w.biasn).toNat <<< w.mwn + (n - 2 ^ w.mwn) else n

/-- Packing a finite nonzero operand to 16 or 32 bits (R71), with the overflow substitution (R72, R73). -/
def packFinite (w : NativeWidth) (v : Word) : Packed :=
  if packedMag w v < w.infMag then { pattern := w.withSign (sign64 v) (packedMag w v), ovf := false }
  else { pattern := w.withSign (sign64 v) w.infMag, ovf := true }

/-- Packing to 16 or 32 bits: the special operands (R68), else R69 to R73. -/
def packNarrow (w : NativeWidth) (v : Word) : Packed :=
  if exp64 v = 2047 then { pattern := w.withSign (sign64 v) w.infMag, ovf := false }
  else if isZero64 v then { pattern := w.withSign (sign64 v) 0, ovf := false }
  else packFinite w v

/-- `pack_W(v)` for a non-NaN operand (R67 to R73). -/
def pack (w : NativeWidth) (v : Word) : Packed :=
  match w with
  | .w64 => { pattern := v.toNat, ovf := false }
  | .w32 => packNarrow .w32 v
  | .w16 => packNarrow .w16 v

/-- `L`: the length of the extracted sequence, `T` if the descriptor truncates, else `W` (R75). -/
def Descriptor.seqLen (d : Descriptor) : Nat := if d.tp then d.t.toNat else d.width.bits

/-- `KM = L - 1 - EW`: the kept mantissa width (30_encoding.md R42; log 7). -/
def Descriptor.keptMan (d : Descriptor) : Nat := d.seqLen - 1 - d.ew.toNat

/-- `truncate(P, d)`: the first `L` bits of the native pattern; "discarding bits, not rounding them" (R75; log 10). -/
def truncate (d : Descriptor) (p : Nat) : Nat := p >>> (d.width.bits - d.seqLen)

/-- `sign = S[L-1]` (R76). -/
def seqSign (d : Descriptor) (s : Nat) : Nat := bitField s (d.seqLen - 1) 1

/-- `E = S[L-2 : L-1-EW]`, `EW` bits above the `KM` mantissa bits; 0 if `EW` = 0 (R76). -/
def seqExp (d : Descriptor) (s : Nat) : Nat := bitField s d.keptMan d.ew.toNat

/-- `M = S[KM-1 : 0]`; 0 if `KM` = 0 (R76). -/
def seqMan (d : Descriptor) (s : Nat) : Nat := bitField s 0 d.keptMan

end Sys2Proof.Machine
end

