-- ==== Sys2Proof/Machine/ErrorComputer.lean ====
section
/-! DEFINITION. The source's ErrorComputer (44_error_computer.md R100 to R106): the exact absolute difference of the
operand and the stored value, on the common scale 2^-1074. -/

namespace Sys2Proof.Machine

/-- `ord64` (R101): the magnitude of a finite pattern as a multiple of 2^-1074. -/
def ord64 (p : Word) : Nat := if exp64 p = 0 then man64 p else (2 ^ 52 + man64 p) <<< (exp64 p - 1)

/-- `sord64` (R101): the signed value of a finite pattern as a multiple of 2^-1074. -/
def sord64 (p : Word) : Int := if sign64 p then -(ord64 p : Int) else (ord64 p : Int)

/-- `D` of R102. -/
def errorOrd (v sv : Word) : Nat := (sord64 v - sord64 sv).natAbs

/-- Whether `D × 2^-1074` is a binary64 value: what R106 asks of `D` (at most 53 significant bits, and below the
overflow of the format). -/
def representable64 (d : Nat) : Bool := decide (d % 2 ^ (bitlen d - 53) = 0) && decide (bitlen d ≤ 2098)

/-- `enc64_exact(D)` (R106), as the number of the pattern. -/
def enc64Nat (d : Nat) : Nat :=
  if bitlen d ≤ 52 then d
  else (bitlen d - 52) <<< 52 + (d >>> (bitlen d - 53) - 2 ^ 52)

/-- The pattern of a free error: finite, nonzero, sign bit 0 (R104, R162). -/
def freeError (n : Fin Config.freeErrorCount) : Word := BitVec.ofNat 64 (n.val + 1)

/-- `AERR` (R102, R103). It is +inf where the stored value is infinite (R103), and also for every infinite operand: its
exact distance from a finite stored value is infinite too. DEDUCED (log 8) from the corner cases of 45_decode.md R115
and D17 of 92_eei_decisions.md, over the derived clause of R104. Where both are finite it is the exact difference, if
that is a binary64 value (R102, R106). If it is not, no formula of the spec gives a result, and the error is a FREE VALUE,
finite and not 0 (DESIGN CHOICE, log 9). An infinite operand with a finite stored value and a difference that is no
binary64 value both need a descriptor that truncates into the native exponent field (log 10). -/
def absError (v sv : Word) : Word :=
  if isInf64 sv || isInf64 v then plusInf64
  else if representable64 (errorOrd v sv) then BitVec.ofNat 64 (enc64Nat (errorOrd v sv))
  else freeError (Config.errorOfInexactDifference v sv)

end Sys2Proof.Machine
end

