-- ==== Sys2Proof/Machine/ValueReconstructor.lean ====
section
/-! DEFINITION. The source's ValueReconstructor (42_value_reconstructor.md R80 to R87): zero padding to the native width
and exact decoding to binary64. -/

namespace Sys2Proof.Machine

/-- `pad(S, L, W)`: right-pad with zero bits to the native width (R82, R83). -/
def pad (d : Descriptor) (s : Nat) : Nat := s <<< (d.width.bits - d.seqLen)

/-- A binary64 pattern from its fields. -/
def mk64 (s : Bool) (e f : Nat) : Word := BitVec.ofNat 64 (bit s <<< 63 + e <<< 52 + f)

/-- `unpack_W` of a native normal: the exponent rebiased, the mantissa left-aligned (R85). -/
def unpackNormal (w : NativeWidth) (s : Bool) (en mn : Nat) : Word :=
  mk64 s (en + 1023 - w.biasn) (mn <<< (52 - w.mwn))

/-- The biased binary64 exponent `x + 1023` of a native subnormal, `x = (k - 1) + (1 - b - mw)`, `k = bitlen(Mn)`
(R86). -/
def subnormalExp64 (w : NativeWidth) (mn : Nat) : Nat := bitlen mn + 1023 - w.biasn - w.mwn

/-- `unpack_W` of a native subnormal: normalised (R86). -/
def unpackSubnormal (w : NativeWidth) (s : Bool) (mn : Nat) : Word :=
  mk64 s (subnormalExp64 w mn) ((mn - 2 ^ (bitlen mn - 1)) <<< (52 - (bitlen mn - 1)))

/-- `unpack_W` for 16 and 32 bits (R84 to R86). An all-ones exponent field is an infinity: a NaN pattern never gets here
(R87; log 12). -/
def unpackNarrow (w : NativeWidth) (pp : Nat) : Word :=
  let s := decide (bitField pp (w.bits - 1) 1 = 1)
  let en := bitField pp w.mwn w.ewn
  let mn := bitField pp 0 w.mwn
  if en = ones w.ewn then mk64 s 2047 0
  else if en = 0 then
    if mn = 0 then mk64 s 0 0 else unpackSubnormal w s mn
  else unpackNormal w s en mn

/-- `unpack_W` (R84 to R86); `unpack_64` is the identity. -/
def unpack (w : NativeWidth) (pp : Nat) : Word :=
  match w with
  | .w64 => BitVec.ofNat 64 pp
  | .w32 => unpackNarrow .w32 pp
  | .w16 => unpackNarrow .w16 pp

end Sys2Proof.Machine
end

