-- ==== Sys2Proof/Machine/Pipeline.lean ====
section
/-! DEFINITION. The pipeline BitExtractor, Classifier, ValueReconstructor, ErrorComputer as one pure function of the
operand and the descriptor (00_scope.md R3; 45_decode.md R112, R115), and the `DECODE` command. -/

namespace Sys2Proof.Machine

/-- The source's DecodedFloat (10_state.md R19) with the lengths of its two sequences (R23) and the overflow flag
(41_bit_extractor.md R74). -/
structure DecodedFloat where
  /-- Sign bit of the extracted sequence. -/
  sign : Nat
  /-- `E`, the exponent bits as an unsigned integer, `ew` of them. -/
  expBits : Nat
  /-- `M`, the kept mantissa bits as an unsigned integer, `km` of them. -/
  manBits : Nat
  ew : Nat
  km : Nat
  /-- `L`, the length of the extracted sequence. -/
  len : Nat
  /-- `W`, the native width. -/
  nativeBits : Nat
  cls : Classification
  stored : Word
  error : Word
  ovf : Bool
  deriving DecidableEq, Repr

/-- `S`: the extracted sequence of an operand under a descriptor (R65, R75). -/
def extracted (d : Descriptor) (v : Word) : Nat := truncate d (pack d.width v).pattern

/-- `SV`: the stored value of an operand under a descriptor (42_value_reconstructor.md R83). DEDUCED (log 10): under a
descriptor that truncates into the native exponent field the formulas of R83 and R115 are followed, as vector V105 does,
over the remarks that an infinity keeps its exponent field (R74), that overflow always reconstructs to signed infinity
(R84, the corner cases of R115) and that an infinite operand is stored as itself (R103, R105, the corner cases of
R115). -/
def storedValue (d : Descriptor) (v : Word) : Word := unpack d.width (pad d (extracted d v))

/-- The pipeline (R3, R115) on a non-NaN operand. -/
def decodeValue (d : Descriptor) (v : Word) : DecodedFloat where
  sign := seqSign d (extracted d v)
  expBits := seqExp d (extracted d v)
  manBits := seqMan d (extracted d v)
  ew := d.ew.toNat
  km := d.keptMan
  len := d.seqLen
  nativeBits := d.width.bits
  cls := classify (seqExp d (extracted d v)) (seqMan d (extracted d v)) d.ew.toNat (signed32 d.bias)
  stored := storedValue d v
  error := absError v (storedValue d v)
  ovf := (pack d.width v).ovf

/-- The result mapping of R113: the eight result registers. -/
def State.writeDecoded (s : State) (r : DecodedFloat) : State :=
  { s with
    rsign := BitVec.ofNat 64 r.sign
    rexp := BitVec.ofNat 64 r.expBits
    rman := BitVec.ofNat 64 r.manBits
    rfmt := rfmtWord r.ew r.km r.len r.nativeBits
    rcls := rclsWord r.cls
    rtexp := rtexpWord r.cls
    rsv := r.stored
    rerr := r.error }

/-- `DECODE slot` (R115): slot number and slot content (`ERR_SLOT`), NaN operand (`ERR_DOMAIN`), then the pipeline;
`STATUS` is 0x001, or 0x101 when the overflow substitution happened (R114). -/
def execDecode (slot : Nat) (s : State) : Host.Outcome State Fault Refusal :=
  if s.ndesc ≤ slot then .next (s.errorCompletion .slot)
  else
    match s.descriptor? slot with
    | none => .next (s.errorCompletion .slot)
    | some d =>
      if isNaN64 s.opa then .next (s.errorCompletion .domain)
      else
        .next ((s.clearResults.writeDecoded (decodeValue d s.opa)).setStatus
          (statusWord true 0 (decodeValue d s.opa).ovf))

end Sys2Proof.Machine
end

