-- ==== Sys2Proof/Machine/Dispatch.lean ====
section
/-! DEFINITION. One arm per command (30_encoding.md R46). -/

namespace Sys2Proof.Machine

def exec (i : Instr) (s : State) : Host.Outcome State Fault Refusal :=
  match i with
  | .descload slot => Sys2Proof.Machine.execDescload slot s
  | .decode slot => Sys2Proof.Machine.execDecode slot s
  | .classify => Sys2Proof.Machine.execClassify s

end Sys2Proof.Machine
end

