-- ==== Sys2Proof/Machine/Port.lean ====
section
/-! DEFINITION. The host port (20_memory.md R32 to R36): what one host transaction does to the machine. -/

namespace Sys2Proof.Machine

/-- A host write of command word `c` to `CMD` (10_state.md R17): execute the command it encodes, or raise `ERR_ILLEGAL`
(30_encoding.md R47). -/
def runCommandWord (c : Word) (s : State) : Host.Outcome State Fault Refusal :=
  match decodeWord c with
  | .ok i => exec i s
  | .error _ => .next (s.errorCompletion .illegal)

/-- `RegRead(n)` (R32): the value goes to the host, the unit is unchanged; an access without a meaning is refused
(R35). -/
def regRead (n : Fin 32) (s : State) : Host.Outcome State Fault Refusal :=
  match Reg.ofNum? n with
  | none => .refused (.unimplementedRegister n)
  | some r =>
    match r.access with
    | .writeOnly => .refused (.readOfWriteOnly n)
    | .readWrite | .readOnly => .next { s with observed := s.observed ++ [s.readReg r] }

/-- `RegWrite(n, v)` (R33): an operand register takes its writable bits, a write of `CMD` executes a command; an access
without a meaning is refused (R35). -/
def regWrite (n : Fin 32) (v : Word) (s : State) : Host.Outcome State Fault Refusal :=
  match Reg.ofNum? n with
  | none => .refused (.unimplementedRegister n)
  | some r =>
    match r.access with
    | .readOnly => .refused (.writeOfReadOnly n)
    | .writeOnly => runCommandWord v s
    | .readWrite => .next (s.writeReg r v)

/-- One host transaction, complete before the next begins (R38). -/
def transact (t : Txn) (s : State) : Host.Outcome State Fault Refusal :=
  match t with
  | .read n => regRead n s
  | .write n v => regWrite n v s
  | .reset => .next s.resetEvent

/-- The host issues its next transaction; with none left the unit does nothing (70_reset_and_hazards.md R149; log 4). -/
def hostStep (s : State) : Host.Outcome State Fault Refusal :=
  match s.script with
  | [] => .next s
  | t :: rest => transact t { s with script := rest }

end Sys2Proof.Machine
end

