-- ==== Sys2Proof/Machine/Step.lean ====
section
/-! DEFINITION. One step of the machine is one host transaction (70_reset_and_hazards.md R159: "A model gives every
transaction one step"). -/

namespace Sys2Proof.Machine

/-- One step: the host's next transaction. -/
def step (s : State) : Host.Outcome State Fault Refusal := hostStep s

/-- The state in which the host's next transaction writes the given command word to `CMD` (register 8): how a command
reaches the unit (10_state.md R11, R17; log 13). -/
def State.withFetchWord (s : State) (nbits w : Nat) : State :=
  { s with script := Txn.write 8 (tableWord nbits w) :: s.script }

end Sys2Proof.Machine
end

