-- ==== Sys2Proof/Machine/ExampleSet.lean ====
section
/-! DEFINITION. The source's example descriptor set (40_descriptor.md R61), as slot contents, and the descriptors XN (43_classifier.md R98)
and XM2 (95_test_vectors.md). None of them is built in: the host loads them (70_reset_and_hazards.md R149). -/

namespace Sys2Proof.Machine.ExampleSet

/-- `D64`: "a 64-bit double layout". -/
def d64 : Descriptor := { width := .w64, ew := 11, mw := 52, tp := false, t := 0, bias := 1023 }

/-- `D32`: "a 32-bit single layout". -/
def d32 : Descriptor := { width := .w32, ew := 8, mw := 23, tp := false, t := 0, bias := 127 }

/-- `D16`: "a 16-bit half layout". -/
def d16 : Descriptor := { width := .w16, ew := 5, mw := 10, tp := false, t := 0, bias := 15 }

/-- `T19`: the 32-bit layout truncated to 19 bits. -/
def t19 : Descriptor := { width := .w32, ew := 8, mw := 23, tp := true, t := 19, bias := 127 }

/-- `T16`: the 32-bit layout truncated to 16 bits. -/
def t16 : Descriptor := { width := .w32, ew := 8, mw := 23, tp := true, t := 16, bias := 127 }

/-- The 64-bit width with `EW` = 5, `MW` = 58, bias 15 (R98). -/
def xn : Descriptor := { width := .w64, ew := 5, mw := 58, tp := false, t := 0, bias := 15 }

/-- `XM2` of 95_test_vectors.md: 16 bits with `EW` = 0 and the smallest legal `T` = 2; it truncates into the native
exponent field. -/
def xm2 : Descriptor := { width := .w16, ew := 0, mw := 15, tp := true, t := 2, bias := 0 }

end Sys2Proof.Machine.ExampleSet
end

