-- ==== Sys2Proof/Machine/Script.lean ====
section
/-! DEFINITION. The host-script notation and its pseudo-instructions, as lists of host transactions (30_encoding.md R53,
R54). -/

namespace Sys2Proof.Machine.Script

/-- `wr <reg>, <value>` (R53). -/
def wr (r : Reg) (v : Word) : List Txn := [.write r.num v]

/-- `rd <reg>` (R53). -/
def rd (r : Reg) : List Txn := [.read r.num]

/-- The `CMD` write of a command (R53). -/
def command (i : Instr) : List Txn := wr .cmd (encode i)

/-- `descload <slot>` (R53). -/
def descload (slot : Nat) : List Txn := command (.descload slot)

/-- `decode <slot>` (R53). -/
def decode (slot : Nat) : List Txn := command (.decode slot)

/-- `classify` (R53). -/
def classify : List Txn := command .classify

/-- `reset` (R53). -/
def reset : List Txn := [.reset]

/-- The `DSTG` word of an untruncated descriptor (R54). -/
def descWord (tw ew mw : Nat) (bias : Int) : Word :=
  BitVec.ofNat 64 (tw + ew <<< 8 + mw <<< 16 + (BitVec.ofInt 32 bias).toNat <<< 32)

/-- The `DSTG` word of a truncating descriptor (R54). -/
def descTruncWord (tw ew mw : Nat) (bias : Int) (t : Nat) : Word :=
  BitVec.ofNat 64 (tw + ew <<< 8 + mw <<< 16 + 1 <<< 23 + t <<< 24 + (BitVec.ofInt 32 bias).toNat <<< 32)

/-- `desc <slot>, <tw>, <ew>, <mw>, <bias>` (R54). -/
def desc (slot tw ew mw : Nat) (bias : Int) : List Txn := wr .dstg (descWord tw ew mw bias) ++ descload slot

/-- `desct <slot>, <tw>, <ew>, <mw>, <bias>, <t>` (R54). -/
def desct (slot tw ew mw : Nat) (bias : Int) (t : Nat) : List Txn :=
  wr .dstg (descTruncWord tw ew mw bias t) ++ descload slot

/-- `decodev <slot>, <p>` (R54). -/
def decodev (slot : Nat) (p : Word) : List Txn := wr .opa p ++ decode slot

/-- `classifyv <e>, <m>, <ew>, <bias>` (R54). -/
def classifyv (e m ew : Word) (bias : Int) : List Txn :=
  wr .cexp e ++ wr .cman m ++ wr .cew ew ++ wr .cbias (BitVec.ofNat 64 (BitVec.ofInt 32 bias).toNat) ++ classify

end Sys2Proof.Machine.Script
end

