-- ==== Sys2Proof/Machine/Value.lean ====
section
/-! DEFINITION. The number a pattern stands for (30_encoding.md R44). No command computes it; the statements about
rounding, reconstruction and error are about it. -/

namespace Sys2Proof.Machine

/-- A real number (a rational one for every finite pattern) or an infinity (R44). -/
inductive Val where
  | finite (x : ℚ)
  | plusInf
  | minusInf
  deriving DecidableEq

/-- `(-1)^s × x`. -/
def signed (s : Bool) (x : ℚ) : ℚ := if s then -x else x

/-- `val(P; ew, mw, b)` (R44); `none` for a NaN pattern, for which it is not defined. -/
def val (ew mw : Nat) (b : Int) (p : Nat) : Option Val :=
  let s := decide (bitField p (ew + mw) 1 = 1)
  let e := bitField p mw ew
  let m := bitField p 0 mw
  if e = 0 then some (.finite (signed s (m * 2 ^ (1 - b - mw : Int))))
  else if e < ones ew then some (.finite (signed s ((2 ^ mw + m) * 2 ^ ((e : Int) - b - mw))))
  else if m = 0 then some (if s then .minusInf else .plusInf)
  else none

/-- `val64(p) = val(p; 11, 52, 1023)` (R44). -/
def val64 (p : Word) : Option Val := val 11 52 1023 p.toNat

/-- The value of a native pattern of width `W`, under the native layout (R41, R44). -/
def valNative (w : NativeWidth) (p : Nat) : Option Val := val w.ewn w.mwn w.biasn p

end Sys2Proof.Machine
end

