-- ==== Sys2Proof/Safety.lean ====
section
/-! DEFINITION. What counts as a safe run, in the terms the statements use: the transactions the spec gives a meaning
(20_memory.md R35), and the invariant of the reachable states (10_state.md R12 to R28). -/

namespace Sys2Proof.Machine

/-! ### Transactions with a meaning -/

/-- The transactions R35 does not exclude: a read of a readable register, a write of a writable one, a reset. -/
def Txn.meaningful : Txn → Bool
  | .read n =>
    match Reg.ofNum? n with
    | some r => decide (r.access ≠ .writeOnly)
    | none => false
  | .write n _ =>
    match Reg.ofNum? n with
    | some r => decide (r.access ≠ .readOnly)
    | none => false
  | .reset => true

/-! ### Descriptors -/

/-- The invariant of a FormatDescriptor (40_descriptor.md R56): the width sum, and the truncation range where it
truncates. -/
def Descriptor.valid (d : Descriptor) : Bool :=
  decide (d.width.bits = 1 + d.ew.toNat + d.mw.toNat) &&
    (!d.tp || (decide (1 + d.ew.toNat < d.t.toNat) && decide (d.t.toNat < d.width.bits)))

/-- The descriptor keeps the whole native exponent field: it does not truncate, or `T` covers the sign and the native
exponent bits. Every descriptor with the native layout does; one with a narrow `EW` need not (log 8 to log 10). -/
def Descriptor.keepsNativeExp (d : Descriptor) : Bool := !d.tp || decide (1 + d.width.ewn ≤ d.t.toNat)

/-! ### Words the unit writes -/

/-- The values `STATUS` takes (10_state.md R18, 60_exceptions.md R126, R131, R132; 93_implementation_defined.md U10). -/
def statusValues : List Word := [0x000, 0x001, 0x101, 0x010, 0x020, 0x040, 0x050, 0x060]

/-- The values `RCLS` takes (10_state.md R24). -/
def rclsValues : List Word := [0x00, 0x21, 0x62, 0x73, 0x04, 0x05]

/-- All eight result registers are 0 (10_state.md R19). -/
def State.resultsClear (s : State) : Prop :=
  s.rsign = 0 ∧ s.rexp = 0 ∧ s.rman = 0 ∧ s.rfmt = 0 ∧ s.rcls = 0 ∧ s.rtexp = 0 ∧ s.rsv = 0 ∧ s.rerr = 0

/-! ### The invariant -/

/-- What holds of every state the unit can reach. -/
structure State.Inv (s : State) : Prop where
  /-- `NDESC` is 1 to 16 (00_scope.md R6). -/
  ndesc_allowed : Config.ndescAllowed s.ndesc
  /-- Every valid slot holds a validated descriptor (10_state.md R16). -/
  slots_valid : ∀ k d, s.descriptor? k = some d → d.valid = true
  /-- Bits 7, 15, 31 of `DSTG` are 0 (R14). -/
  dstg_hardwired : s.dstg &&& 0x0000000080008080 = 0
  /-- Bits 63:7 of `CEW` are 0 (R15). -/
  cew_hardwired : s.cew.toNat < 2 ^ 7
  /-- Bits 63:32 of `CBIAS` are 0 (R15). -/
  cbias_hardwired : s.cbias.toNat < 2 ^ 32
  /-- `STATUS` is one of the values a command leaves (R18). -/
  status_value : s.status ∈ statusValues
  /-- Without `RV` the result registers are 0 (R18, R19). -/
  clear_without_rv : statusRV s.status = false → s.resultsClear
  /-- `RSIGN` has only bit 0 (R20). -/
  rsign_bit : s.rsign.toNat < 2
  /-- `REXP` holds `RFMT.EW` bits (R21). -/
  rexp_fits : s.rexp.toNat < 2 ^ (rfmtEW s.rfmt).toNat
  /-- `RMAN` holds `RFMT.KM` bits (R22). -/
  rman_fits : s.rman.toNat < 2 ^ (rfmtKM s.rfmt).toNat
  /-- The reserved bits of `RFMT` are 0 (R23). -/
  rfmt_reserved : s.rfmt &&& Reg.usedBits .rfmt = s.rfmt
  /-- `RCLS` is one of six values (R24). -/
  rcls_value : s.rcls ∈ rclsValues
  /-- `RTEXP` is 0 where no true exponent is defined (R25). -/
  rtexp_placeholder : rclsTEXPV s.rcls = false → s.rtexp = 0
  /-- `RSV` is never a NaN pattern (R26). -/
  rsv_not_nan : isNaN64 s.rsv = false
  /-- `RERR` has sign bit 0 (R27). -/
  rerr_nonneg : sign64 s.rerr = false
  /-- `RERR` is never a NaN pattern (R27). -/
  rerr_not_nan : isNaN64 s.rerr = false

end Sys2Proof.Machine
end

