-- ==== Sys2Proof/Certificates/Slice0/Obligations.lean ====
section
/-! DEFINITION. The statements for the provers. Each formalises rules of spec/ or a fact derived from them; the docstring
names them. -/

open Sys2Proof Sys2Proof.Machine

/-! ### Encoding -/

/-- Decoding the command word of a well-formed command gives the command back (R45, R46, R55). -/
def Obligations.DecodeOfEncode : Prop :=
  ∀ i : Instr, i.wf = true → decodeWord (encode i) = .ok i

/-- A word that decodes is the encoding of the well-formed command it decodes to: no two words are one command. -/
def Obligations.EncodeOfDecode : Prop :=
  ∀ (c : Word) (i : Instr), decodeWord c = .ok i → i.wf = true ∧ encode i = c

/-- The opcode map with its 64-bit masks (R46), and `SLOT` = bits 11:8. -/
def Obligations.OpcodeMapMatchAndMask : Prop :=
  ∀ (c : Word) (k : Nat),
    (decodeWord c = .ok (.descload k) ↔ c &&& 0xFFFFFFFFFFFFF0FF = 0x1 ∧ k = (c >>> 8).toNat % 16) ∧
    (decodeWord c = .ok (.decode k) ↔ c &&& 0xFFFFFFFFFFFFF0FF = 0x2 ∧ k = (c >>> 8).toNat % 16) ∧
    (decodeWord c = .ok .classify ↔ c &&& 0xFFFFFFFFFFFFFFFF = 0x3)

/-- Words written out from the layouts of R45, R46 and R54 decode to the commands they stand for, and words R47 names
do not decode. -/
def Obligations.WrittenOutWordsDecode : Prop :=
  decodeWord 0x0000000000000001 = .ok (.descload 0) ∧
  decodeWord 0x0000000000000301 = .ok (.descload 3) ∧
  decodeWord 0x0000000000000302 = .ok (.decode 3) ∧
  decodeWord 0x0000000000000F02 = .ok (.decode 15) ∧
  decodeWord 0x0000000000000003 = .ok .classify ∧
  decodeWord 0x0000000000000000 = .error .unassignedOpcode ∧
  decodeWord 0x0000000000000103 = .error .classifyWithSlot ∧
  decodeWord 0x0000000000001001 = .error .reservedBits

/-- R47: a `CMD` write of a word that matches no row raises `ERR_ILLEGAL` and does nothing else, and the words R47 lists
are such words; a slot number of `NDESC` or more is a legal encoding that raises `ERR_SLOT`. -/
def Obligations.IllegalWordRaisesErrIllegal : Prop :=
  (∀ (s : State) (c : Word), c &&& 0xFFFFFFFFFFFFF0FF ≠ 0x1 → c &&& 0xFFFFFFFFFFFFF0FF ≠ 0x2 → c ≠ 0x3 →
    transact (.write 8 c) s = .next { s with
      rsign := 0, rexp := 0, rman := 0, rfmt := 0, rcls := 0, rtexp := 0, rsv := 0, rerr := 0, status := 0x040 }) ∧
  (∀ c : Word,
    (c &&& 0xFF = 0x00 ∨ 0x04 ≤ (c &&& 0xFF).toNat ∨ c >>> 12 ≠ 0 ∨ (c &&& 0xFF = 0x03 ∧ (c >>> 8) &&& 0xF ≠ 0)) ↔
    (c &&& 0xFFFFFFFFFFFFF0FF ≠ 0x1 ∧ c &&& 0xFFFFFFFFFFFFF0FF ≠ 0x2 ∧ c ≠ 0x3)) ∧
  (∀ (s : State) (slot : Nat) (c : Word), slot < 16 → s.ndesc ≤ slot →
    c = BitVec.ofNat 64 (0x01 + slot * 256) ∨ c = BitVec.ofNat 64 (0x02 + slot * 256) →
    transact (.write 8 c) s = .next { s with
      rsign := 0, rexp := 0, rman := 0, rfmt := 0, rcls := 0, rtexp := 0, rsv := 0, rerr := 0, status := 0x050 })

/-! ### The step and the host port -/

/-- A step performs the host's next transaction, taken off the script (R159; the script in State is the model's choice,
log 3), and where that transaction writes a word that decodes to `i` the step is `exec i`; `withFetchWord` sets exactly
such a transaction up. -/
def Obligations.StepRunsDecodedCommand : Prop :=
  (∀ (s : State) (x : Txn) (rest : List Txn), s.script = x :: rest → step s = transact x { s with script := rest }) ∧
  (∀ (s : State) (c : Word) (rest : List Txn) (i : Instr),
    s.script = .write 8 c :: rest → decodeWord c = .ok i → step s = exec i { s with script := rest }) ∧
  (∀ (s : State) (nbits w : Nat) (i : Instr), decodeTableWord nbits w = some i → step (s.withFetchWord nbits w) = exec i s)

/-- With no transaction left the unit does nothing (R149, and the model's choice of log 4). -/
def Obligations.IdleUnitDoesNothing : Prop :=
  ∀ s : State, s.script = [] → step s = .next s

/-- R32: a read returns the register's value, hardwired-zero and reserved bits reading 0, and changes no state of the
unit. (What the host is given is held in `observed`, log 16.) -/
def Obligations.RegReadReturnsRegister : Prop :=
  ∀ (s : State) (n : Fin 32) (v : Word),
    ((n = 0 ∧ v = s.opa) ∨ (n = 1 ∧ v = s.dstg &&& 0xFFFFFFFF7FFF7F7F) ∨ (n = 2 ∧ v = s.cexp) ∨
      (n = 3 ∧ v = s.cman) ∨ (n = 4 ∧ v = s.cew &&& 0x7F) ∨ (n = 5 ∧ v = s.cbias &&& 0xFFFFFFFF) ∨
      (n = 9 ∧ v = s.status &&& 0x1F1) ∨ (n = 10 ∧ v = s.dvalid) ∨ (n = 16 ∧ v = s.rsign &&& 0x1) ∨
      (n = 17 ∧ v = s.rexp) ∨ (n = 18 ∧ v = s.rman) ∨ (n = 19 ∧ v = s.rfmt &&& 0x7F7F7F7F) ∨
      (n = 20 ∧ v = s.rcls &&& 0x77) ∨ (n = 21 ∧ v = s.rtexp) ∨ (n = 22 ∧ v = s.rsv) ∨ (n = 23 ∧ v = s.rerr)) →
    transact (.read n) s = .next { s with observed := s.observed ++ [v] }

/-- R33: a write of an operand register replaces its writable bits and does nothing else; a write of register 8 stores
nothing and executes the command. -/
def Obligations.RegWriteReplacesWritableBits : Prop :=
  ∀ (s : State) (v : Word),
    transact (.write 0 v) s = .next { s with opa := v } ∧
    transact (.write 1 v) s = .next { s with dstg := v &&& 0xFFFFFFFF7FFF7F7F } ∧
    transact (.write 2 v) s = .next { s with cexp := v } ∧
    transact (.write 3 v) s = .next { s with cman := v } ∧
    transact (.write 4 v) s = .next { s with cew := v &&& 0x7F } ∧
    transact (.write 5 v) s = .next { s with cbias := v &&& 0xFFFFFFFF } ∧
    (∀ i, decodeWord v = .ok i → transact (.write 8 v) s = exec i s) ∧
    (∀ e, decodeWord v = .error e → transact (.write 8 v) s = .next (s.errorCompletion .illegal))

/-- R35: the accesses without a meaning are refused, each with its own name, and nothing else is. -/
def Obligations.MeaninglessAccessesRefused : Prop :=
  (∀ (s : State) (n : Fin 32) (v : Word),
    ((n = 6 ∨ n = 7 ∨ (11 ≤ n.val ∧ n.val ≤ 15) ∨ 24 ≤ n.val) →
      transact (.read n) s = .refused (.unimplementedRegister n) ∧
      transact (.write n v) s = .refused (.unimplementedRegister n)) ∧
    ((n = 9 ∨ n = 10 ∨ (16 ≤ n.val ∧ n.val ≤ 23)) → transact (.write n v) s = .refused (.writeOfReadOnly n))) ∧
  (∀ s : State, transact (.read 8) s = .refused (.readOfWriteOnly 8)) ∧
  (∀ (s : State) (x : Txn) (r : Refusal), transact x s = .refused r → x.meaningful = false)

/-- Every transaction R35 does not exclude takes a next state, in every state, takes nothing from what the host has
observed and keeps the number of slots (the model's choices of log 2, log 3, log 11, log 16); no step faults (R123). -/
def Obligations.MeaningfulTransactionsComplete : Prop :=
  (∀ (s : State) (x : Txn) (rest : List Txn), s.script = x :: rest → x.meaningful = true →
    ∃ t, step s = .next t ∧ t.script = rest ∧ s.observed <+: t.observed ∧ t.ndesc = s.ndesc) ∧
  (∀ (s : State) (f : Fault), step s ≠ .fault f)

/-- A host script of meaningful transactions runs to its last line from every state (R158, R159: "every command
terminates"). The script in State, one transaction a step, is the model's choice (log 3). -/
def Obligations.MeaningfulScriptsRunToTheEnd : Prop :=
  ∀ s : State, (∀ t ∈ s.script, t.meaningful = true) →
    ∃ s' : State, Host.Core.run core s.script.length s = .next s' ∧ s'.script = []

/-- R28: bit `k` of `DVALID` is `DT[k].VALID` below `NDESC`, 0 above. -/
def Obligations.DvalidViewsTable : Prop :=
  ∀ (s : State) (k : Nat), s.ndesc ≤ 16 → k < 64 →
    s.dvalid.getLsbD k = (decide (k < s.ndesc) && s.slotValid k)

/-- R54: the pseudo-instructions of the host-script notation expand to these transactions, and the worked encodings. -/
def Obligations.PseudoInstructionExpansions : Prop :=
  (∀ (slot tw ew mw : Nat) (bias : Int), slot < 16 →
    Script.desc slot tw ew mw bias =
      [.write 1 (BitVec.ofNat 64 (tw + ew * 2 ^ 8 + mw * 2 ^ 16 + (bias % 2 ^ 32).toNat * 2 ^ 32)),
        .write 8 (BitVec.ofNat 64 (0x01 + slot * 2 ^ 8))]) ∧
  (∀ (slot tw ew mw t : Nat) (bias : Int), slot < 16 →
    Script.desct slot tw ew mw bias t =
      [.write 1 (BitVec.ofNat 64
          (tw + ew * 2 ^ 8 + mw * 2 ^ 16 + 2 ^ 23 + t * 2 ^ 24 + (bias % 2 ^ 32).toNat * 2 ^ 32)),
        .write 8 (BitVec.ofNat 64 (0x01 + slot * 2 ^ 8))]) ∧
  (∀ (slot : Nat) (p : Word), slot < 16 →
    Script.decodev slot p = [.write 0 p, .write 8 (BitVec.ofNat 64 (0x02 + slot * 2 ^ 8))]) ∧
  (∀ (e m ew : Word) (bias : Int), Script.classifyv e m ew bias =
    [.write 2 e, .write 3 m, .write 4 ew, .write 5 (BitVec.ofNat 64 (bias % 2 ^ 32).toNat), .write 8 0x03]) ∧
  Script.desc 0 64 11 52 1023 = [.write 1 0x000003FF00340B40, .write 8 0x001] ∧
  Script.desct 3 32 8 23 127 19 = [.write 1 0x0000007F13970820, .write 8 0x301] ∧
  Script.decode 3 = [.write 8 0x302]

/-- R38 (c), R40: a descriptor that is staged and loaded is in effect for the very next command, with nothing in
between. -/
def Obligations.LoadedDescriptorIsUsedAtOnce : Prop :=
  ∀ (s : State) (k : Nat) (v x : Word) (w : NativeWidth), k < 16 → k < s.ndesc → s.slotValid k = false →
    validate (v &&& 0xFFFFFFFF7FFF7F7F) = .ok w → isNaN64 x = false →
    ∃ t : State, Host.Core.run core 4
        { s with script := Script.wr .opa x ++ Script.wr .dstg v ++ Script.descload k ++ Script.decode k } = .next t ∧
      t.script = [] ∧ statusRV t.status = true ∧ t.rsv = storedValue (stagedDescriptor w v) x ∧
      t.descriptor? k = some (stagedDescriptor w v)

/-! ### Reset -/

/-- R150: the reset event: every register 0, every slot empty, `DVALID` reads 0. -/
def Obligations.ResetEventClearsUnit : Prop :=
  ∀ s : State, ∃ t, transact .reset s = .next t ∧
    t.opa = 0 ∧ t.dstg = 0 ∧ t.cexp = 0 ∧ t.cman = 0 ∧ t.cew = 0 ∧ t.cbias = 0 ∧
    (∀ k, t.slotValid k = false) ∧ t.status = 0 ∧
    t.rsign = 0 ∧ t.rexp = 0 ∧ t.rman = 0 ∧ t.rfmt = 0 ∧ t.rcls = 0 ∧ t.rtexp = 0 ∧ t.rsv = 0 ∧ t.rerr = 0 ∧
    t.dvalid = 0

/-- R29: after reset every readable register reads 0 and every slot is empty, for every `NDESC`. -/
def Obligations.ResetValuesAreZero : Prop :=
  ∀ ndesc : Nat,
    (∀ (n : Fin 32) (r : Reg), Reg.ofNum? n = some r → (State.resetOf ndesc).readReg r = 0) ∧
    (∀ k, (State.resetOf ndesc).descriptor? k = none)

/-- R151: what commands do on a freshly reset unit, for every `NDESC`. -/
def Obligations.FreshUnitCommands : Prop :=
  ∀ ndesc : Nat,
    (∀ k, exec (.decode k) (State.resetOf ndesc) = .next { State.resetOf ndesc with status := 0x050 }) ∧
    exec .classify (State.resetOf ndesc) = .next { State.resetOf ndesc with rcls := 0x21, status := 0x001 } ∧
    (∀ k, exec (.descload k) (State.resetOf ndesc) =
      .next { State.resetOf ndesc with status := if ndesc ≤ k then 0x050 else 0x010 })

/-! ### Completion, frames, purity -/

/-- R131, with the numbers of R126 written out: the error completion, for every code. -/
def Obligations.ErrorCompletionEffect : Prop :=
  ∀ (s : State) (e : ErrCode),
    s.errorCompletion e = { s with
      rsign := 0, rexp := 0, rman := 0, rfmt := 0, rcls := 0, rtexp := 0, rsv := 0, rerr := 0
      status := match e with
        | .config => 0x010
        | .unsupported => 0x020
        | .invalidInput => 0x030
        | .illegal => 0x040
        | .slot => 0x050
        | .domain => 0x060 }

/-- Every command ends in a next state, by an error completion with one of the five codes the unit produces or by a
success completion with `ERR` = 0 (R123, R132, R126). -/
def Obligations.CommandsAlwaysComplete : Prop :=
  ∀ (i : Instr) (s : State), ∃ t, exec i s = .next t ∧
    ((∃ e : ErrCode, e ≠ .invalidInput ∧ t = s.errorCompletion e) ∨
      (t.status = match i with
        | .descload _ => 0x000
        | .classify => 0x001
        | .decode _ => t.status &&& 0x100 ||| 0x001))

/-- The frame of the three commands (R124, R131, R167): no command changes an operand register, the host's side or the
number of slots; only `DESCLOAD` changes the table, and of it only the slot it names. -/
def Obligations.CommandFrame : Prop :=
  ∀ (i : Instr) (s t : State), exec i s = .next t →
    t.opa = s.opa ∧ t.dstg = s.dstg ∧ t.cexp = s.cexp ∧ t.cman = s.cman ∧ t.cew = s.cew ∧ t.cbias = s.cbias ∧
    t.script = s.script ∧ t.observed = s.observed ∧ t.ndesc = s.ndesc ∧
    (∀ k, i ≠ .descload k → t.descriptor? k = s.descriptor? k)

/-- No command's outcome depends on `STATUS` or on the result registers (R112, R167): a command answers the same from
any values of them. -/
def Obligations.CommandsIgnoreOldResults : Prop :=
  ∀ (i : Instr) (s : State) (st a b c d e f g h : Word),
    exec i { s with
      status := st, rsign := a, rexp := b, rman := c, rfmt := d, rcls := e, rtexp := f, rsv := g, rerr := h } = exec i s

/-- R59: a valid slot is immutable under every host transaction but the reset event; a `DESCLOAD` that names it raises `ERR_SLOT`
and changes nothing but `STATUS` and the result registers. -/
def Obligations.ValidSlotIsImmutable : Prop :=
  (∀ (s t : State) (x : Txn) (k : Nat) (d : Descriptor), s.descriptor? k = some d → x ≠ .reset →
    transact x s = .next t → t.descriptor? k = some d) ∧
  (∀ (s : State) (k : Nat) (d : Descriptor), s.descriptor? k = some d →
    exec (.descload k) s = .next { s with
      rsign := 0, rexp := 0, rman := 0, rfmt := 0, rcls := 0, rtexp := 0, rsv := 0, rerr := 0, status := 0x050 })

/-! ### DESCLOAD -/

/-- R58, the success completion: a consistent descriptor of a supported width goes into an empty slot. -/
def Obligations.DescloadInstallsDescriptor : Prop :=
  ∀ (s : State) (slot : Nat) (w : NativeWidth), slot < s.ndesc → s.slotValid slot = false →
    (s.dstg.extractLsb' 0 7).toNat = w.bits →
    w.bits = 1 + (s.dstg.extractLsb' 8 7).toNat + (s.dstg.extractLsb' 16 7).toNat →
    (s.dstg.getLsbD 23 = true →
      1 + (s.dstg.extractLsb' 8 7).toNat < (s.dstg.extractLsb' 24 7).toNat ∧
        (s.dstg.extractLsb' 24 7).toNat < w.bits) →
    exec (.descload slot) s = .next { s with
      table := s.table.set slot (some
        { width := w, ew := s.dstg.extractLsb' 8 7, mw := s.dstg.extractLsb' 16 7, tp := s.dstg.getLsbD 23
          t := s.dstg.extractLsb' 24 7, bias := s.dstg.extractLsb' 32 32 })
      rsign := 0, rexp := 0, rman := 0, rfmt := 0, rcls := 0, rtexp := 0, rsv := 0, rerr := 0
      status := 0x000 }

/-- R57, R130: the errors of `DESCLOAD` in their order. -/
def Obligations.DescloadErrorsInOrder : Prop :=
  ∀ (s : State) (slot : Nat),
    (s.ndesc ≤ slot → exec (.descload slot) s = .next (s.errorCompletion .slot)) ∧
    (s.slotValid slot = true → exec (.descload slot) s = .next (s.errorCompletion .slot)) ∧
    (slot < s.ndesc → s.slotValid slot = false →
      ((dstgTW s.dstg).toNat ≠ 1 + (dstgEW s.dstg).toNat + (dstgMW s.dstg).toNat →
        exec (.descload slot) s = .next (s.errorCompletion .config)) ∧
      (dstgTP s.dstg = true →
        ¬(1 + (dstgEW s.dstg).toNat < (dstgT s.dstg).toNat ∧ (dstgT s.dstg).toNat < (dstgTW s.dstg).toNat) →
        exec (.descload slot) s = .next (s.errorCompletion .config)) ∧
      ((dstgTW s.dstg).toNat = 1 + (dstgEW s.dstg).toNat + (dstgMW s.dstg).toNat →
        (dstgTP s.dstg = true →
          1 + (dstgEW s.dstg).toNat < (dstgT s.dstg).toNat ∧ (dstgT s.dstg).toNat < (dstgTW s.dstg).toNat) →
        (dstgTW s.dstg).toNat ≠ 16 → (dstgTW s.dstg).toNat ≠ 32 → (dstgTW s.dstg).toNat ≠ 64 →
        exec (.descload slot) s = .next (s.errorCompletion .unsupported)))

/-! ### CLASSIFY -/

/-- R94, R95: `CLASSIFY` on fields the rules classify. -/
def Obligations.ClassifyResult : Prop :=
  ∀ (s : State) (e m ew : Nat) (bias : Int), e = s.cexp.toNat → m = s.cman.toNat →
    ew = (s.cew.extractLsb' 0 7).toNat → bias = (s.cbias.extractLsb' 0 32).toInt → ew ≤ 63 → e < 2 ^ ew →
    exec .classify s = .next { s with
      rsign := 0, rexp := 0, rman := 0, rfmt := 0, rsv := 0, rerr := 0
      rcls :=
        if e = 0 ∧ m = 0 then 0x21
        else if e = 0 then 0x62
        else if e < 2 ^ ew - 1 then 0x73
        else if m = 0 then 0x04
        else 0x05
      rtexp :=
        if e = 0 ∧ m = 0 then 0
        else if e = 0 then BitVec.ofInt 64 (1 - bias)
        else if e < 2 ^ ew - 1 then BitVec.ofInt 64 (e - bias)
        else 0
      status := 0x001 }

/-- R93, R95: arguments no rule classifies raise `ERR_DOMAIN`. -/
def Obligations.ClassifyDomainErrors : Prop :=
  ∀ s : State,
    (63 < (s.cew.extractLsb' 0 7).toNat ∨ 2 ^ (s.cew.extractLsb' 0 7).toNat ≤ s.cexp.toNat) →
    exec .classify s = .next (s.errorCompletion .domain)

/-- R97: the categories small exponent widths can have. -/
def Obligations.SmallExponentWidths : Prop :=
  (∀ (m : Nat) (bias : Int), classify 0 m 0 bias =
    if m = 0 then { cat := .zero, impl := some false, texp := none }
    else { cat := .subnormal, impl := some false, texp := some (1 - bias) }) ∧
  (∀ (e m : Nat) (bias : Int), e < 2 ^ 1 →
    (classify e m 1 bias).cat =
      if e = 0 then (if m = 0 then .zero else .subnormal) else (if m = 0 then .infinity else .nan)) ∧
  (∀ (ew : Nat) (bias : Int), 2 ≤ ew → ∀ c : Category, ∃ e m, e < 2 ^ ew ∧ (classify e m ew bias).cat = c)

/-- R91, R25: the true exponent `CLASSIFY` delivers, read as a signed number. It is exact for `CEW ≤ 62` and for every
Subnormal; for `CEW` = 63 the register holds the low 64 bits; for the other categories it is the placeholder 0. -/
def Obligations.ClassifyTrueExponent : Prop :=
  ∀ (s : State) (ew : Nat) (bias : Int), ew = (s.cew.extractLsb' 0 7).toNat → bias = (s.cbias.extractLsb' 0 32).toInt →
    ew ≤ 63 → s.cexp.toNat < 2 ^ ew →
    ∃ t, exec .classify s = .next t ∧
      (rclsCAT t.rcls = 2 → t.rtexp.toInt = 1 - bias) ∧
      (rclsCAT t.rcls = 3 → ew ≤ 62 ∨ (s.cexp.toNat : Int) - bias < 2 ^ 63 →
        t.rtexp.toInt = (s.cexp.toNat : Int) - bias) ∧
      (rclsCAT t.rcls = 3 → 2 ^ 63 ≤ (s.cexp.toNat : Int) - bias →
        t.rtexp.toInt = (s.cexp.toNat : Int) - bias - 2 ^ 64) ∧
      (rclsTEXPV t.rcls = true ↔ rclsCAT t.rcls = 2 ∨ rclsCAT t.rcls = 3) ∧
      (rclsTEXPV t.rcls = false → t.rtexp = 0)

/-! ### DECODE: completion and errors -/

/-- R115, R113, R114: `DECODE` of a non-NaN operand under a valid slot, with the pipeline of R115 written out over the
stage functions. -/
def Obligations.DecodeResult : Prop :=
  ∀ (s : State) (slot : Nat) (d : Descriptor) (P W L S KM : Nat) (c : Classification) (SV : Word),
    s.descriptor? slot = some d → isNaN64 s.opa = false →
    W = d.width.bits → P = (pack d.width s.opa).pattern → L = (if d.tp then d.t.toNat else W) → S = P >>> (W - L) →
    KM = L - 1 - d.ew.toNat →
    c = classify (S >>> KM % 2 ^ d.ew.toNat) (S % 2 ^ KM) d.ew.toNat d.bias.toInt →
    SV = unpack d.width (S <<< (W - L)) →
    exec (.decode slot) s = .next { s with
      rsign := BitVec.ofNat 64 (S >>> (L - 1) % 2)
      rexp := BitVec.ofNat 64 (S >>> KM % 2 ^ d.ew.toNat)
      rman := BitVec.ofNat 64 (S % 2 ^ KM)
      rfmt := BitVec.ofNat 64 (d.ew.toNat + KM <<< 8 + L <<< 16 + W <<< 24)
      rcls := rclsWord c
      rtexp := rtexpWord c
      rsv := SV
      rerr := absError s.opa SV
      status := if (pack d.width s.opa).ovf then 0x101 else 0x001 }

/-- R111: the errors of `DECODE` in their order, and no others: `ERR` is 0, `ERR_SLOT` or `ERR_DOMAIN` after it. -/
def Obligations.DecodeErrorsInOrder : Prop :=
  (∀ (s : State) (slot : Nat),
    (s.ndesc ≤ slot ∨ s.slotValid slot = false → exec (.decode slot) s = .next (s.errorCompletion .slot)) ∧
    (s.slotValid slot = true → isNaN64 s.opa = true → exec (.decode slot) s = .next (s.errorCompletion .domain))) ∧
  (∀ (s t : State) (slot : Nat), exec (.decode slot) s = .next t →
    statusERR t.status = 0 ∨ statusERR t.status = 5 ∨ statusERR t.status = 6)

/-- R112: the result of a `DECODE` without error is a function of `OPA` and the slot's fields alone, and nothing but
`STATUS` and the result registers changes. -/
def Obligations.DecodeIsPure : Prop :=
  ∀ (s s' : State) (k k' : Nat) (d : Descriptor), s.descriptor? k = some d → s'.descriptor? k' = some d →
    s.opa = s'.opa → isNaN64 s.opa = false →
    ∃ t t', exec (.decode k) s = .next t ∧ exec (.decode k') s' = .next t' ∧
      t.rsign = t'.rsign ∧ t.rexp = t'.rexp ∧ t.rman = t'.rman ∧ t.rfmt = t'.rfmt ∧ t.rcls = t'.rcls ∧
      t.rtexp = t'.rtexp ∧ t.rsv = t'.rsv ∧ t.rerr = t'.rerr ∧ t.status = t'.status ∧
      t = { s with
        status := t.status, rsign := t.rsign, rexp := t.rexp, rman := t.rman, rfmt := t.rfmt, rcls := t.rcls
        rtexp := t.rtexp, rsv := t.rsv, rerr := t.rerr }

/-! ### DECODE: the BitExtractor -/

/-- R68, with `pack_64` of R67: the operands that pack without rounding. -/
def Obligations.PackSpecialOperands : Prop :=
  (∀ v : Word, pack .w64 v = { pattern := v.toNat, ovf := false }) ∧
  pack .w16 0x7FF0000000000000 = { pattern := 0x7C00, ovf := false } ∧
  pack .w16 0xFFF0000000000000 = { pattern := 0xFC00, ovf := false } ∧
  pack .w32 0x7FF0000000000000 = { pattern := 0x7F800000, ovf := false } ∧
  pack .w32 0xFFF0000000000000 = { pattern := 0xFF800000, ovf := false } ∧
  pack .w16 0x0000000000000000 = { pattern := 0x0000, ovf := false } ∧
  pack .w16 0x8000000000000000 = { pattern := 0x8000, ovf := false } ∧
  pack .w32 0x0000000000000000 = { pattern := 0x00000000, ovf := false } ∧
  pack .w32 0x8000000000000000 = { pattern := 0x80000000, ovf := false }

/-- R70: packing is round-to-nearest, ties-to-even. The packed pattern of a finite operand that does not overflow is
finite, no finite pattern of the width is nearer to the operand, and where another value is as near the packed pattern
is even. -/
def Obligations.PackRoundsToNearestEven : Prop :=
  ∀ (w : NativeWidth) (v : Word) (y : ℚ), val64 v = some (.finite y) → (pack w v).ovf = false →
    ∃ x : ℚ, valNative w (pack w v).pattern = some (.finite x) ∧
      ∀ (q : Nat) (z : ℚ), q < 2 ^ w.bits → valNative w q = some (.finite z) →
        |x - y| ≤ |z - y| ∧ (|x - y| = |z - y| → z ≠ x → (pack w v).pattern % 2 = 0)

/-- R72: overflow at 16 bits: exactly from magnitude 65520 on, with the signed infinity; between 65504 and 65520 the
operand rounds to 65504. -/
def Obligations.HalfOverflow : Prop :=
  ∀ (v : Word) (y : ℚ), val64 v = some (.finite y) →
    ((pack .w16 v).ovf = true ↔ 65520 ≤ |y|) ∧
    (65520 ≤ |y| → (pack .w16 v).pattern = if sign64 v then 0xFC00 else 0x7C00) ∧
    (65504 < |y| → |y| < 65520 → (pack .w16 v).pattern = if sign64 v then 0xFBFF else 0x7BFF)

/-- R73: overflow at 32 bits: exactly from magnitude (2 - 2^-24) × 2^127 on, with the signed infinity; 64 bits never
overflow. -/
def Obligations.SingleOverflow : Prop :=
  (∀ (v : Word) (y : ℚ), val64 v = some (.finite y) →
    ((pack .w32 v).ovf = true ↔ (2 - 2 ^ (-24 : Int)) * 2 ^ (127 : Int) ≤ |y|) ∧
    ((pack .w32 v).ovf = true → (pack .w32 v).pattern = if sign64 v then 0xFF800000 else 0x7F800000)) ∧
  (∀ v : Word, (pack .w64 v).ovf = false)

/-- R74, first sentence and R114: after a `DECODE` without error `STATUS.OVF` is 1 exactly when the operand is finite and
the packed pattern is an infinity pattern. -/
def Obligations.OverflowFlagMeaning : Prop :=
  ∀ (s : State) (slot : Nat) (d : Descriptor), s.descriptor? slot = some d → isNaN64 s.opa = false →
    ∃ t, exec (.decode slot) s = .next t ∧
      (statusOVF t.status = true ↔
        isFinite64 s.opa = true ∧ (valNative d.width (pack d.width s.opa).pattern = some .plusInf ∨
          valNative d.width (pack d.width s.opa).pattern = some .minusInf))

/-- R92, R75, R76: truncation keeps the sign and the exponent field and a leading part of the mantissa field. -/
def Obligations.TruncationKeepsExponentField : Prop :=
  ∀ (d : Descriptor) (v : Word), d.valid = true → d.tp = true →
    seqSign d (extracted d v) = seqSign { d with tp := false } (extracted { d with tp := false } v) ∧
    seqExp d (extracted d v) = seqExp { d with tp := false } (extracted { d with tp := false } v) ∧
    seqMan d (extracted d v) =
      seqMan { d with tp := false } (extracted { d with tp := false } v) >>> (d.width.bits - d.t.toNat)

/-! ### DECODE: the Classifier -/

/-- R98: under a descriptor whose layout is the native one `DECODE` reports Zero, Subnormal, Normal or Infinity and
never NaN; under the descriptor XN it reports NaN for +inf, whose stored value is +inf. -/
def Obligations.NanCategoryReachability : Prop :=
  (∀ (s : State) (slot : Nat) (d : Descriptor), s.descriptor? slot = some d → d.valid = true →
    d.ew.toNat = d.width.ewn → isNaN64 s.opa = false →
    ∃ t, exec (.decode slot) s = .next t ∧
      (rclsCAT t.rcls = 1 ∨ rclsCAT t.rcls = 2 ∨ rclsCAT t.rcls = 3 ∨ rclsCAT t.rcls = 4)) ∧
  (∀ (s : State) (slot : Nat), s.descriptor? slot = some ExampleSet.xn → s.opa = 0x7FF0000000000000 →
    ∃ t, exec (.decode slot) s = .next t ∧
      t.rexp = 31 ∧ t.rman = 0x3F0000000000000 ∧ rclsCAT t.rcls = 5 ∧ t.rsv = 0x7FF0000000000000)

/-- R91, R25, R161: the true exponent a `DECODE` delivers, read as a signed number, is `1 - BIAS` for Subnormal and
`E - BIAS` for Normal, without wrap-around, and the placeholder 0 for the other categories. -/
def Obligations.DecodeTrueExponentExact : Prop :=
  ∀ (s : State) (slot : Nat) (d : Descriptor), s.descriptor? slot = some d → d.valid = true → isNaN64 s.opa = false →
    ∃ t, exec (.decode slot) s = .next t ∧
      (rclsCAT t.rcls = 2 → t.rtexp.toInt = 1 - d.bias.toInt) ∧
      (rclsCAT t.rcls = 3 → t.rtexp.toInt = (t.rexp.toNat : Int) - d.bias.toInt) ∧
      (rclsTEXPV t.rcls = true ↔ rclsCAT t.rcls = 2 ∨ rclsCAT t.rcls = 3) ∧
      (rclsTEXPV t.rcls = false → t.rtexp = 0)

/-- R99: the subnormal boundary of the 64-bit layout: 2^(1-1023) is Normal with implicit bit 1, the next smaller value
Subnormal with implicit bit 0, both with true exponent -1022. -/
def Obligations.SubnormalBoundary : Prop :=
  ∀ (s : State) (slot : Nat), s.descriptor? slot = some ExampleSet.d64 →
    (s.opa = 0x0010000000000000 → exec (.decode slot) s = .next { s with
      rsign := 0, rexp := 1, rman := 0, rfmt := 0x4040340B, rcls := 0x73
      rtexp := BitVec.ofInt 64 (-1022), rsv := 0x0010000000000000, rerr := 0, status := 0x001 }) ∧
    (s.opa = 0x000FFFFFFFFFFFFF → exec (.decode slot) s = .next { s with
      rsign := 0, rexp := 0, rman := 0xFFFFFFFFFFFFF, rfmt := 0x4040340B, rcls := 0x62
      rtexp := BitVec.ofInt 64 (-1022), rsv := 0x000FFFFFFFFFFFFF, rerr := 0, status := 0x001 })

/-! ### DECODE: the ValueReconstructor -/

/-- R84 to R86: reconstruction is exact: the binary64 pattern has the value of the native pattern. -/
def Obligations.ReconstructionIsExact : Prop :=
  ∀ (w : NativeWidth) (p : Nat), p < 2 ^ w.bits → valNative w p ≠ none → val64 (unpack w p) = valNative w p

/-- R82, R83: the stored value depends only on the operand, `TW`, `TP` and `T`; padding after truncation clears the low
`W - L` bits. -/
def Obligations.StoredValueDependencies : Prop :=
  (∀ (d d' : Descriptor) (v : Word), d.width = d'.width → d.tp = d'.tp → d.t = d'.t →
    storedValue d v = storedValue d' v) ∧
  (∀ (d : Descriptor) (p : Nat), d.valid = true → p < 2 ^ d.width.bits →
    pad d (truncate d p) = p - p % 2 ^ (d.width.bits - d.seqLen))

/-- R83, last sentence, for finite packed values: truncation moves the stored value toward zero, with the same sign. -/
def Obligations.StoredMagnitudeNeverGrows : Prop :=
  ∀ (d : Descriptor) (v : Word) (x : ℚ), d.valid = true → isNaN64 v = false →
    valNative d.width (pack d.width v).pattern = some (.finite x) →
    ∃ y : ℚ, val64 (storedValue d v) = some (.finite y) ∧ |y| ≤ |x| ∧ sign64 (storedValue d v) = sign64 v

/-! ### DECODE: the ErrorComputer -/

/-- R101: `sord64` is the value on the scale 2^-1074. -/
def Obligations.OrdIsValue : Prop :=
  ∀ p : Word, isFinite64 p = true → val64 p = some (.finite ((sord64 p : ℚ) * 2 ^ (-1074 : Int)))

/-- R106: `enc64_exact` and `ord64` are inverse to each other on non-negative finite patterns and representable
integers, and the representable integers are the magnitudes of the finite patterns. -/
def Obligations.EncodeExactInvertsOrd : Prop :=
  (∀ p : Word, isFinite64 p = true → representable64 (ord64 p) = true) ∧
  (∀ p : Word, isFinite64 p = true → sign64 p = false → enc64Nat (ord64 p) = p.toNat) ∧
  (∀ n : Nat, representable64 n = true → enc64Nat n < 2047 * 2 ^ 52 ∧ ord64 (BitVec.ofNat 64 (enc64Nat n)) = n)

/-- R102, with R105's exactness, for descriptors that keep the whole native exponent field: the reported error is
exactly the absolute difference of the operand and the stored value. R102, R106, for every valid descriptor: it is that
difference wherever both are finite and the difference is the value of some binary64 pattern. -/
def Obligations.ErrorIsExact : Prop :=
  (∀ (s : State) (slot : Nat) (d : Descriptor), s.descriptor? slot = some d → d.valid = true →
    d.keepsNativeExp = true → isNaN64 s.opa = false →
    ∃ t, exec (.decode slot) s = .next t ∧
      ∀ y : ℚ, val64 t.rsv = some (.finite y) →
        ∃ x : ℚ, val64 s.opa = some (.finite x) ∧ val64 t.rerr = some (.finite |x - y|)) ∧
  (∀ (s : State) (slot : Nat) (d : Descriptor), s.descriptor? slot = some d → d.valid = true →
    isNaN64 s.opa = false →
    ∃ t, exec (.decode slot) s = .next t ∧
      ∀ (x y : ℚ) (p : Word), val64 s.opa = some (.finite x) → val64 t.rsv = some (.finite y) →
        val64 p = some (.finite |x - y|) → val64 t.rerr = some (.finite |x - y|))

/-- R105 as the spec words it, for EVERY valid descriptor: a finite operand and a finite stored value have a binary64
error. EXPECTED TO FAIL: a descriptor that truncates into the native exponent field has operands whose exact error is
no binary64 value (log 9). -/
def Obligations.ErrorIsExactForEveryDescriptor : Prop :=
  ∀ (s t : State) (slot : Nat) (d : Descriptor) (x y : ℚ), s.descriptor? slot = some d → d.valid = true →
    exec (.decode slot) s = .next t → val64 s.opa = some (.finite x) → val64 t.rsv = some (.finite y) →
    val64 t.rerr = some (.finite |x - y|)

/-- R103: an infinite stored value has error +inf, whatever the operand. -/
def Obligations.InfiniteStoredValueHasInfiniteError : Prop :=
  ∀ (s : State) (slot : Nat) (d : Descriptor), s.descriptor? slot = some d → isNaN64 s.opa = false →
    isInf64 (storedValue d s.opa) = true →
    ∃ t, exec (.decode slot) s = .next t ∧ t.rsv = storedValue d s.opa ∧ t.rerr = 0x7FF0000000000000

/-- R104, R103: the error has sign bit 0 and is never a NaN; it is finite whenever both inputs of the ErrorComputer are,
for every value of the free value (log 9), and +inf where either is infinite (for an infinite operand with a finite
stored value that is the model's reading, log 8). -/
def Obligations.ErrorIsNonNegative : Prop :=
  ∀ v sv : Word, isNaN64 v = false → isNaN64 sv = false →
    sign64 (absError v sv) = false ∧ isNaN64 (absError v sv) = false ∧
    (isFinite64 v = true → isFinite64 sv = true → isFinite64 (absError v sv) = true) ∧
    (isInf64 sv = true ∨ isInf64 v = true → absError v sv = 0x7FF0000000000000)

/-- R162: inexactness is visible as `RERR` ≠ 0. For every valid descriptor, wherever the stored value is finite the
error is 0 exactly when the stored value has the operand's value; for every value of the free value (log 9). -/
def Obligations.InexactnessIsVisible : Prop :=
  ∀ (s : State) (slot : Nat) (d : Descriptor), s.descriptor? slot = some d → isNaN64 s.opa = false →
    ∃ t, exec (.decode slot) s = .next t ∧
      (isFinite64 t.rsv = true → (t.rerr = 0 ↔ val64 t.rsv = val64 s.opa))

/-- R84, last sentence, and R105 (a), for descriptors that keep the whole native exponent field (log 10): an infinite
operand, and a finite one that overflows, are stored as the infinity of their sign, with error +inf; `OVF` tells the two
apart. -/
def Obligations.InfinityIsStoredAsInfinity : Prop :=
  ∀ (s : State) (slot : Nat) (d : Descriptor), s.descriptor? slot = some d → d.valid = true →
    d.keepsNativeExp = true → isInf64 s.opa = true ∨ (pack d.width s.opa).ovf = true → isNaN64 s.opa = false →
    ∃ t, exec (.decode slot) s = .next t ∧
      t.rsv = (if sign64 s.opa then 0xFFF0000000000000 else 0x7FF0000000000000) ∧ t.rerr = 0x7FF0000000000000 ∧
      (statusOVF t.status = true ↔ isInf64 s.opa = false)

/-- The formulas of R75, R83 and R115 on a descriptor that truncates into the native exponent field (XM2): vectors V105
and V106, and +inf, whose stored value by the same formulas is 2.0 (log 10) and whose error is +inf by the corner cases
of R115 (log 8). -/
def Obligations.TruncationIntoExponentField : Prop :=
  ∀ (s : State) (slot : Nat), s.descriptor? slot = some ExampleSet.xm2 →
    (s.opa = 0x3FF0000000000000 → exec (.decode slot) s = .next { s with
      rsign := 0, rexp := 0, rman := 0, rfmt := 0x10020100, rcls := 0x21, rtexp := 0
      rsv := 0, rerr := 0x3FF0000000000000, status := 0x001 }) ∧
    (s.opa = 0x4000000000000000 → exec (.decode slot) s = .next { s with
      rsign := 0, rexp := 0, rman := 1, rfmt := 0x10020100, rcls := 0x62, rtexp := 1
      rsv := 0x4000000000000000, rerr := 0, status := 0x001 }) ∧
    (s.opa = 0x7FF0000000000000 → ∃ t, exec (.decode slot) s = .next t ∧
      t.rsv = 0x4000000000000000 ∧ t.rerr = 0x7FF0000000000000 ∧ t.status = 0x001)

/-! ### DECODE: the source's properties -/

/-- R116: round trip under an untruncated 64-bit descriptor, for every finite operand. -/
def Obligations.RoundTripDouble : Prop :=
  ∀ (s : State) (slot : Nat) (d : Descriptor), s.descriptor? slot = some d → d.width = .w64 → d.tp = false →
    isFinite64 s.opa = true →
    ∃ t, exec (.decode slot) s = .next t ∧ t.rsv = s.opa ∧ t.rerr = 0 ∧ t.status = 0x001

/-- R117: idempotence: decoding the stored value again gives every field again except the error, which is 0 where the
stored value is finite, and the overflow flag, which is 0; the flag does differ for 1e10 under `D16`. -/
def Obligations.DecodeIsIdempotent : Prop :=
  ∀ (s : State) (slot : Nat) (d : Descriptor), s.descriptor? slot = some d → d.valid = true →
    isNaN64 s.opa = false →
    ∃ t t', exec (.decode slot) s = .next t ∧ exec (.decode slot) { t with opa := t.rsv } = .next t' ∧
      t'.rsign = t.rsign ∧ t'.rexp = t.rexp ∧ t'.rman = t.rman ∧ t'.rfmt = t.rfmt ∧ t'.rcls = t.rcls ∧
      t'.rtexp = t.rtexp ∧ t'.rsv = t.rsv ∧ (isFinite64 t.rsv = true → t'.rerr = 0) ∧
      (isInf64 t.rsv = true → t'.rerr = t.rerr) ∧ statusOVF t'.status = false ∧
      (d = ExampleSet.d16 → s.opa = 0x4202A05F20000000 → statusOVF t.status = true)

/-- R118: truncation monotonicity for every finite operand whose binary32 packing is finite (`RERR` is non-negative, and
non-negative patterns compare as their values do), the last error the binary32 rounding error, 0 exactly for operands
that are binary32 values, and the rule's example. -/
def Obligations.TruncationMonotonicity : Prop :=
  ∀ (s : State) (k16 k19 k32 : Nat), s.descriptor? k16 = some ExampleSet.t16 →
    s.descriptor? k19 = some ExampleSet.t19 → s.descriptor? k32 = some ExampleSet.d32 →
    isFinite64 s.opa = true → (pack .w32 s.opa).ovf = false →
    ∃ t16 t19 t32, exec (.decode k16) s = .next t16 ∧ exec (.decode k19) s = .next t19 ∧
      exec (.decode k32) s = .next t32 ∧
      t19.rerr.toNat ≤ t16.rerr.toNat ∧ t32.rerr.toNat ≤ t19.rerr.toNat ∧ isFinite64 t16.rerr = true ∧
      (t32.rerr = 0 ↔ ∃ p < 2 ^ 32, valNative .w32 p = val64 s.opa) ∧
      (∃ x y : ℚ, val64 s.opa = some (.finite x) ∧
        valNative .w32 (pack .w32 s.opa).pattern = some (.finite y) ∧ val64 t32.rerr = some (.finite |x - y|)) ∧
      (s.opa = 0x3FB99999A0000000 →
        t16.rerr = 0x3F3999A000000000 ∧ t19.rerr = 0x3EF99A0000000000 ∧ t32.rerr = 0)

/-- R119, R120 and the example of R115: 1e10 under `D16`, 0.1 under `D64` and under `T16`, in whatever slot and
state. -/
def Obligations.WorkedDecodes : Prop :=
  pack .w16 0x4202A05F20000000 = { pattern := 0x7C00, ovf := true } ∧
  (∀ (s : State) (slot : Nat), s.descriptor? slot = some ExampleSet.d16 → s.opa = 0x4202A05F20000000 →
    exec (.decode slot) s = .next { s with
      rsign := 0, rexp := 0x1F, rman := 0, rfmt := 0x10100A05, rcls := 0x04, rtexp := 0
      rsv := 0x7FF0000000000000, rerr := 0x7FF0000000000000, status := 0x101 }) ∧
  (∀ (s : State) (slot : Nat), s.descriptor? slot = some ExampleSet.d64 → s.opa = 0x3FB999999999999A →
    exec (.decode slot) s = .next { s with
      rsign := 0, rexp := 0x3FB, rman := 0x999999999999A, rfmt := 0x4040340B, rcls := 0x73
      rtexp := 0xFFFFFFFFFFFFFFFC, rsv := 0x3FB999999999999A, rerr := 0, status := 0x001 }) ∧
  (∀ (s : State) (slot : Nat), s.descriptor? slot = some ExampleSet.t16 → s.opa = 0x3FB999999999999A →
    exec (.decode slot) s = .next { s with
      rsign := 0, rexp := 0x7B, rman := 0x4C, rfmt := 0x20100708, rcls := 0x73
      rtexp := 0xFFFFFFFFFFFFFFFC, rsv := 0x3FB9800000000000, rerr := 0x3F39999999999A00, status := 0x001 })

/-! ### The invariant -/

/-- Every step keeps the invariant of the reachable states. -/
def Obligations.StepKeepsInvariant : Prop :=
  ∀ s t : State, s.Inv → step s = .next t → t.Inv

/-- The reset state has the invariant and the given number of slots, for every `NDESC` R6 admits (that the table's length
is `NDESC` is the model's choice of log 2). -/
def Obligations.ResetHasInvariant : Prop :=
  (∀ ndesc : Nat, Config.ndescAllowed ndesc → (State.resetOf ndesc).Inv ∧ (State.resetOf ndesc).ndesc = ndesc) ∧
  State.reset.Inv
end

