-- ==== Sys2Proof/Laws/Bits.lean ====
section
/-! SUPPORT. Slices, bit lengths and the fields of assembled patterns, each unfolded once. -/

namespace Sys2Proof.Machine

/-! ### Slices -/

/-- A slice fits its width (R7). -/
theorem bitField_lt (v lo width : Nat) : bitField v lo width < 2 ^ width := Nat.mod_lt _ (Nat.two_pow_pos _)

/-- An empty slice is 0 (R7). -/
@[simp] theorem bitField_zero_width (v lo : Nat) : bitField v lo 0 = 0 := by simp [bitField, Nat.mod_one]

theorem bitField_eq (v lo width : Nat) : bitField v lo width = v / 2 ^ lo % 2 ^ width := by
  rw [bitField, Nat.shiftRight_eq_div_pow]

theorem bit_le_one (b : Bool) : bit b ≤ 1 := by cases b <;> simp [bit]

@[simp] theorem bit_eq_one (b : Bool) : bit b = 1 ↔ b = true := by cases b <;> simp [bit]

/-! ### Bit length -/

@[simp] theorem bitlen_zero : bitlen 0 = 0 := rfl

/-- `bitlen a` is the least number of bits that holds `a` (R7). -/
theorem bitlen_le_iff (a n : Nat) : bitlen a ≤ n ↔ a < 2 ^ n := by
  unfold bitlen
  split
  · rename_i h; subst h; simp
  · rename_i h
    rw [Nat.succ_le_iff, Nat.log2_lt h]

/-- A positive number lies between the two powers of two around its length (R7). -/
theorem bitlen_bounds {a : Nat} (h : 0 < a) : 2 ^ (bitlen a - 1) ≤ a ∧ a < 2 ^ bitlen a ∧ 1 ≤ bitlen a := by
  have h1 : a < 2 ^ bitlen a := (bitlen_le_iff a _).1 (Nat.le_refl _)
  have h2 : 1 ≤ bitlen a := by
    by_contra hc
    have : a < 2 ^ 0 := (bitlen_le_iff a 0).1 (by omega)
    omega
  refine ⟨?_, h1, h2⟩
  by_contra hc
  have := (bitlen_le_iff a (bitlen a - 1)).2 (by omega)
  omega

/-! ### Binary64 patterns -/

theorem exp64_eq (p : Word) : exp64 p = p.toNat / 2 ^ 52 % 2 ^ 11 := by
  simp [exp64, BitVec.extractLsb'_toNat, Nat.shiftRight_eq_div_pow]

theorem man64_eq (p : Word) : man64 p = p.toNat % 2 ^ 52 := by
  simp [man64, BitVec.extractLsb'_toNat]

theorem sign64_eq (p : Word) : sign64 p = decide (2 ^ 63 ≤ p.toNat) := by
  have h := p.isLt
  simp only [sign64, BitVec.getLsbD, Nat.testBit_eq_decide_div_mod_eq]
  congr 1
  simp only [eq_iff_iff]
  omega

theorem exp64_lt (p : Word) : exp64 p < 2048 := by rw [exp64_eq]; omega

theorem man64_lt (p : Word) : man64 p < 2 ^ 52 := by rw [man64_eq]; omega

/-- A pattern is its three fields (R41). -/
theorem toNat_eq_fields (p : Word) : p.toNat = bit (sign64 p) * 2 ^ 63 + exp64 p * 2 ^ 52 + man64 p := by
  have h := p.isLt
  rw [exp64_eq, man64_eq, sign64_eq]
  by_cases hs : 2 ^ 63 ≤ p.toNat <;> simp only [hs, decide_true, decide_false, bit] <;> norm_num <;> omega

theorem toNat_mk64 {s : Bool} {e f : Nat} (he : e < 2048) (hf : f < 2 ^ 52) :
    (mk64 s e f).toNat = bit s * 2 ^ 63 + e * 2 ^ 52 + f := by
  have := bit_le_one s
  simp only [mk64, BitVec.toNat_ofNat, Nat.shiftLeft_eq]
  omega

/-- The fields of an assembled pattern are the fields it was assembled from. -/
theorem mk64_fields {s : Bool} {e f : Nat} (he : e < 2048) (hf : f < 2 ^ 52) :
    sign64 (mk64 s e f) = s ∧ exp64 (mk64 s e f) = e ∧ man64 (mk64 s e f) = f := by
  rw [exp64_eq, man64_eq, sign64_eq, toNat_mk64 he hf]
  cases s <;> simp only [bit] <;> refine ⟨?_, ?_, ?_⟩ <;> simp <;> omega

/-- Two patterns with the same fields are equal. -/
theorem word_ext_fields {p q : Word} (hs : sign64 p = sign64 q) (he : exp64 p = exp64 q) (hm : man64 p = man64 q) :
    p = q := by
  apply BitVec.eq_of_toNat_eq
  rw [toNat_eq_fields p, toNat_eq_fields q, hs, he, hm]

/-- A non-NaN pattern, less its sign, is at most the infinity pattern (R43). -/
theorem isNaN64_eq_false_iff (p : Word) : isNaN64 p = false ↔ p.toNat % 2 ^ 63 ≤ 2047 * 2 ^ 52 := by
  have h := p.isLt
  simp only [isNaN64, exp64_eq, man64_eq, Bool.and_eq_false_iff, decide_eq_false_iff_not]
  omega

end Sys2Proof.Machine
end

