-- ==== Sys2Proof/Laws/State.lean ====
section
/-! SUPPORT. One lemma per field of State per named update, true by `rfl`, so that no proof unfolds a record update. -/

namespace Sys2Proof.Machine.State

variable (s : State)

/-! ### `clearResults` -/

@[simp] theorem clearResults_opa : (s.clearResults).opa = s.opa := rfl
@[simp] theorem clearResults_dstg : (s.clearResults).dstg = s.dstg := rfl
@[simp] theorem clearResults_cexp : (s.clearResults).cexp = s.cexp := rfl
@[simp] theorem clearResults_cman : (s.clearResults).cman = s.cman := rfl
@[simp] theorem clearResults_cew : (s.clearResults).cew = s.cew := rfl
@[simp] theorem clearResults_cbias : (s.clearResults).cbias = s.cbias := rfl
@[simp] theorem clearResults_table : (s.clearResults).table = s.table := rfl
@[simp] theorem clearResults_status : (s.clearResults).status = s.status := rfl
@[simp] theorem clearResults_rsign : (s.clearResults).rsign = 0 := rfl
@[simp] theorem clearResults_rexp : (s.clearResults).rexp = 0 := rfl
@[simp] theorem clearResults_rman : (s.clearResults).rman = 0 := rfl
@[simp] theorem clearResults_rfmt : (s.clearResults).rfmt = 0 := rfl
@[simp] theorem clearResults_rcls : (s.clearResults).rcls = 0 := rfl
@[simp] theorem clearResults_rtexp : (s.clearResults).rtexp = 0 := rfl
@[simp] theorem clearResults_rsv : (s.clearResults).rsv = 0 := rfl
@[simp] theorem clearResults_rerr : (s.clearResults).rerr = 0 := rfl
@[simp] theorem clearResults_script : (s.clearResults).script = s.script := rfl
@[simp] theorem clearResults_observed : (s.clearResults).observed = s.observed := rfl

/-! ### `setStatus` -/

@[simp] theorem setStatus_opa (w : Word) : (s.setStatus w).opa = s.opa := rfl
@[simp] theorem setStatus_dstg (w : Word) : (s.setStatus w).dstg = s.dstg := rfl
@[simp] theorem setStatus_cexp (w : Word) : (s.setStatus w).cexp = s.cexp := rfl
@[simp] theorem setStatus_cman (w : Word) : (s.setStatus w).cman = s.cman := rfl
@[simp] theorem setStatus_cew (w : Word) : (s.setStatus w).cew = s.cew := rfl
@[simp] theorem setStatus_cbias (w : Word) : (s.setStatus w).cbias = s.cbias := rfl
@[simp] theorem setStatus_table (w : Word) : (s.setStatus w).table = s.table := rfl
@[simp] theorem setStatus_status (w : Word) : (s.setStatus w).status = w := rfl
@[simp] theorem setStatus_rsign (w : Word) : (s.setStatus w).rsign = s.rsign := rfl
@[simp] theorem setStatus_rexp (w : Word) : (s.setStatus w).rexp = s.rexp := rfl
@[simp] theorem setStatus_rman (w : Word) : (s.setStatus w).rman = s.rman := rfl
@[simp] theorem setStatus_rfmt (w : Word) : (s.setStatus w).rfmt = s.rfmt := rfl
@[simp] theorem setStatus_rcls (w : Word) : (s.setStatus w).rcls = s.rcls := rfl
@[simp] theorem setStatus_rtexp (w : Word) : (s.setStatus w).rtexp = s.rtexp := rfl
@[simp] theorem setStatus_rsv (w : Word) : (s.setStatus w).rsv = s.rsv := rfl
@[simp] theorem setStatus_rerr (w : Word) : (s.setStatus w).rerr = s.rerr := rfl
@[simp] theorem setStatus_script (w : Word) : (s.setStatus w).script = s.script := rfl
@[simp] theorem setStatus_observed (w : Word) : (s.setStatus w).observed = s.observed := rfl

/-! ### `errorCompletion` -/

@[simp] theorem errorCompletion_opa (e : ErrCode) : (s.errorCompletion e).opa = s.opa := rfl
@[simp] theorem errorCompletion_dstg (e : ErrCode) : (s.errorCompletion e).dstg = s.dstg := rfl
@[simp] theorem errorCompletion_cexp (e : ErrCode) : (s.errorCompletion e).cexp = s.cexp := rfl
@[simp] theorem errorCompletion_cman (e : ErrCode) : (s.errorCompletion e).cman = s.cman := rfl
@[simp] theorem errorCompletion_cew (e : ErrCode) : (s.errorCompletion e).cew = s.cew := rfl
@[simp] theorem errorCompletion_cbias (e : ErrCode) : (s.errorCompletion e).cbias = s.cbias := rfl
@[simp] theorem errorCompletion_table (e : ErrCode) : (s.errorCompletion e).table = s.table := rfl
@[simp] theorem errorCompletion_status (e : ErrCode) : (s.errorCompletion e).status = statusWord false e.code false := rfl
@[simp] theorem errorCompletion_rsign (e : ErrCode) : (s.errorCompletion e).rsign = 0 := rfl
@[simp] theorem errorCompletion_rexp (e : ErrCode) : (s.errorCompletion e).rexp = 0 := rfl
@[simp] theorem errorCompletion_rman (e : ErrCode) : (s.errorCompletion e).rman = 0 := rfl
@[simp] theorem errorCompletion_rfmt (e : ErrCode) : (s.errorCompletion e).rfmt = 0 := rfl
@[simp] theorem errorCompletion_rcls (e : ErrCode) : (s.errorCompletion e).rcls = 0 := rfl
@[simp] theorem errorCompletion_rtexp (e : ErrCode) : (s.errorCompletion e).rtexp = 0 := rfl
@[simp] theorem errorCompletion_rsv (e : ErrCode) : (s.errorCompletion e).rsv = 0 := rfl
@[simp] theorem errorCompletion_rerr (e : ErrCode) : (s.errorCompletion e).rerr = 0 := rfl
@[simp] theorem errorCompletion_script (e : ErrCode) : (s.errorCompletion e).script = s.script := rfl
@[simp] theorem errorCompletion_observed (e : ErrCode) : (s.errorCompletion e).observed = s.observed := rfl

/-! ### `installSlot` -/

@[simp] theorem installSlot_opa (k : Nat) (d : Descriptor) : (s.installSlot k d).opa = s.opa := rfl
@[simp] theorem installSlot_dstg (k : Nat) (d : Descriptor) : (s.installSlot k d).dstg = s.dstg := rfl
@[simp] theorem installSlot_cexp (k : Nat) (d : Descriptor) : (s.installSlot k d).cexp = s.cexp := rfl
@[simp] theorem installSlot_cman (k : Nat) (d : Descriptor) : (s.installSlot k d).cman = s.cman := rfl
@[simp] theorem installSlot_cew (k : Nat) (d : Descriptor) : (s.installSlot k d).cew = s.cew := rfl
@[simp] theorem installSlot_cbias (k : Nat) (d : Descriptor) : (s.installSlot k d).cbias = s.cbias := rfl
@[simp] theorem installSlot_table (k : Nat) (d : Descriptor) : (s.installSlot k d).table = s.table.set k (some d) := rfl
@[simp] theorem installSlot_status (k : Nat) (d : Descriptor) : (s.installSlot k d).status = s.status := rfl
@[simp] theorem installSlot_rsign (k : Nat) (d : Descriptor) : (s.installSlot k d).rsign = s.rsign := rfl
@[simp] theorem installSlot_rexp (k : Nat) (d : Descriptor) : (s.installSlot k d).rexp = s.rexp := rfl
@[simp] theorem installSlot_rman (k : Nat) (d : Descriptor) : (s.installSlot k d).rman = s.rman := rfl
@[simp] theorem installSlot_rfmt (k : Nat) (d : Descriptor) : (s.installSlot k d).rfmt = s.rfmt := rfl
@[simp] theorem installSlot_rcls (k : Nat) (d : Descriptor) : (s.installSlot k d).rcls = s.rcls := rfl
@[simp] theorem installSlot_rtexp (k : Nat) (d : Descriptor) : (s.installSlot k d).rtexp = s.rtexp := rfl
@[simp] theorem installSlot_rsv (k : Nat) (d : Descriptor) : (s.installSlot k d).rsv = s.rsv := rfl
@[simp] theorem installSlot_rerr (k : Nat) (d : Descriptor) : (s.installSlot k d).rerr = s.rerr := rfl
@[simp] theorem installSlot_script (k : Nat) (d : Descriptor) : (s.installSlot k d).script = s.script := rfl
@[simp] theorem installSlot_observed (k : Nat) (d : Descriptor) : (s.installSlot k d).observed = s.observed := rfl

/-! ### `writeClass` -/

@[simp] theorem writeClass_opa (c : Classification) : (s.writeClass c).opa = s.opa := rfl
@[simp] theorem writeClass_dstg (c : Classification) : (s.writeClass c).dstg = s.dstg := rfl
@[simp] theorem writeClass_cexp (c : Classification) : (s.writeClass c).cexp = s.cexp := rfl
@[simp] theorem writeClass_cman (c : Classification) : (s.writeClass c).cman = s.cman := rfl
@[simp] theorem writeClass_cew (c : Classification) : (s.writeClass c).cew = s.cew := rfl
@[simp] theorem writeClass_cbias (c : Classification) : (s.writeClass c).cbias = s.cbias := rfl
@[simp] theorem writeClass_table (c : Classification) : (s.writeClass c).table = s.table := rfl
@[simp] theorem writeClass_status (c : Classification) : (s.writeClass c).status = s.status := rfl
@[simp] theorem writeClass_rsign (c : Classification) : (s.writeClass c).rsign = s.rsign := rfl
@[simp] theorem writeClass_rexp (c : Classification) : (s.writeClass c).rexp = s.rexp := rfl
@[simp] theorem writeClass_rman (c : Classification) : (s.writeClass c).rman = s.rman := rfl
@[simp] theorem writeClass_rfmt (c : Classification) : (s.writeClass c).rfmt = s.rfmt := rfl
@[simp] theorem writeClass_rcls (c : Classification) : (s.writeClass c).rcls = rclsWord c := rfl
@[simp] theorem writeClass_rtexp (c : Classification) : (s.writeClass c).rtexp = rtexpWord c := rfl
@[simp] theorem writeClass_rsv (c : Classification) : (s.writeClass c).rsv = s.rsv := rfl
@[simp] theorem writeClass_rerr (c : Classification) : (s.writeClass c).rerr = s.rerr := rfl
@[simp] theorem writeClass_script (c : Classification) : (s.writeClass c).script = s.script := rfl
@[simp] theorem writeClass_observed (c : Classification) : (s.writeClass c).observed = s.observed := rfl

/-! ### `writeDecoded` -/

@[simp] theorem writeDecoded_opa (r : DecodedFloat) : (s.writeDecoded r).opa = s.opa := rfl
@[simp] theorem writeDecoded_dstg (r : DecodedFloat) : (s.writeDecoded r).dstg = s.dstg := rfl
@[simp] theorem writeDecoded_cexp (r : DecodedFloat) : (s.writeDecoded r).cexp = s.cexp := rfl
@[simp] theorem writeDecoded_cman (r : DecodedFloat) : (s.writeDecoded r).cman = s.cman := rfl
@[simp] theorem writeDecoded_cew (r : DecodedFloat) : (s.writeDecoded r).cew = s.cew := rfl
@[simp] theorem writeDecoded_cbias (r : DecodedFloat) : (s.writeDecoded r).cbias = s.cbias := rfl
@[simp] theorem writeDecoded_table (r : DecodedFloat) : (s.writeDecoded r).table = s.table := rfl
@[simp] theorem writeDecoded_status (r : DecodedFloat) : (s.writeDecoded r).status = s.status := rfl
@[simp] theorem writeDecoded_rsign (r : DecodedFloat) : (s.writeDecoded r).rsign = BitVec.ofNat 64 r.sign := rfl
@[simp] theorem writeDecoded_rexp (r : DecodedFloat) : (s.writeDecoded r).rexp = BitVec.ofNat 64 r.expBits := rfl
@[simp] theorem writeDecoded_rman (r : DecodedFloat) : (s.writeDecoded r).rman = BitVec.ofNat 64 r.manBits := rfl
@[simp] theorem writeDecoded_rfmt (r : DecodedFloat) : (s.writeDecoded r).rfmt = rfmtWord r.ew r.km r.len r.nativeBits := rfl
@[simp] theorem writeDecoded_rcls (r : DecodedFloat) : (s.writeDecoded r).rcls = rclsWord r.cls := rfl
@[simp] theorem writeDecoded_rtexp (r : DecodedFloat) : (s.writeDecoded r).rtexp = rtexpWord r.cls := rfl
@[simp] theorem writeDecoded_rsv (r : DecodedFloat) : (s.writeDecoded r).rsv = r.stored := rfl
@[simp] theorem writeDecoded_rerr (r : DecodedFloat) : (s.writeDecoded r).rerr = r.error := rfl
@[simp] theorem writeDecoded_script (r : DecodedFloat) : (s.writeDecoded r).script = s.script := rfl
@[simp] theorem writeDecoded_observed (r : DecodedFloat) : (s.writeDecoded r).observed = s.observed := rfl

/-! ### `resetEvent` -/

@[simp] theorem resetEvent_opa : (s.resetEvent).opa = 0 := rfl
@[simp] theorem resetEvent_dstg : (s.resetEvent).dstg = 0 := rfl
@[simp] theorem resetEvent_cexp : (s.resetEvent).cexp = 0 := rfl
@[simp] theorem resetEvent_cman : (s.resetEvent).cman = 0 := rfl
@[simp] theorem resetEvent_cew : (s.resetEvent).cew = 0 := rfl
@[simp] theorem resetEvent_cbias : (s.resetEvent).cbias = 0 := rfl
@[simp] theorem resetEvent_table : (s.resetEvent).table = List.replicate s.ndesc none := rfl
@[simp] theorem resetEvent_status : (s.resetEvent).status = 0 := rfl
@[simp] theorem resetEvent_rsign : (s.resetEvent).rsign = 0 := rfl
@[simp] theorem resetEvent_rexp : (s.resetEvent).rexp = 0 := rfl
@[simp] theorem resetEvent_rman : (s.resetEvent).rman = 0 := rfl
@[simp] theorem resetEvent_rfmt : (s.resetEvent).rfmt = 0 := rfl
@[simp] theorem resetEvent_rcls : (s.resetEvent).rcls = 0 := rfl
@[simp] theorem resetEvent_rtexp : (s.resetEvent).rtexp = 0 := rfl
@[simp] theorem resetEvent_rsv : (s.resetEvent).rsv = 0 := rfl
@[simp] theorem resetEvent_rerr : (s.resetEvent).rerr = 0 := rfl
@[simp] theorem resetEvent_script : (s.resetEvent).script = s.script := rfl
@[simp] theorem resetEvent_observed : (s.resetEvent).observed = s.observed := rfl

/-! ### `writeReg` -/

@[simp] theorem writeReg_table (r : Reg) (v : Word) : (s.writeReg r v).table = s.table := by cases r <;> rfl
@[simp] theorem writeReg_status (r : Reg) (v : Word) : (s.writeReg r v).status = s.status := by cases r <;> rfl
@[simp] theorem writeReg_rsign (r : Reg) (v : Word) : (s.writeReg r v).rsign = s.rsign := by cases r <;> rfl
@[simp] theorem writeReg_rexp (r : Reg) (v : Word) : (s.writeReg r v).rexp = s.rexp := by cases r <;> rfl
@[simp] theorem writeReg_rman (r : Reg) (v : Word) : (s.writeReg r v).rman = s.rman := by cases r <;> rfl
@[simp] theorem writeReg_rfmt (r : Reg) (v : Word) : (s.writeReg r v).rfmt = s.rfmt := by cases r <;> rfl
@[simp] theorem writeReg_rcls (r : Reg) (v : Word) : (s.writeReg r v).rcls = s.rcls := by cases r <;> rfl
@[simp] theorem writeReg_rtexp (r : Reg) (v : Word) : (s.writeReg r v).rtexp = s.rtexp := by cases r <;> rfl
@[simp] theorem writeReg_rsv (r : Reg) (v : Word) : (s.writeReg r v).rsv = s.rsv := by cases r <;> rfl
@[simp] theorem writeReg_rerr (r : Reg) (v : Word) : (s.writeReg r v).rerr = s.rerr := by cases r <;> rfl
@[simp] theorem writeReg_script (r : Reg) (v : Word) : (s.writeReg r v).script = s.script := by cases r <;> rfl
@[simp] theorem writeReg_observed (r : Reg) (v : Word) : (s.writeReg r v).observed = s.observed := by cases r <;> rfl

/-! ### The table accessors see the table alone -/

theorem descriptor?_congr {s t : State} (h : t.table = s.table) (k : Nat) : t.descriptor? k = s.descriptor? k := by
  simp only [descriptor?, h]

theorem ndesc_congr {s t : State} (h : t.table = s.table) : t.ndesc = s.ndesc := by simp only [ndesc, h]

theorem slotValid_eq_isSome (k : Nat) : s.slotValid k = (s.descriptor? k).isSome := rfl

/-- A slot with a descriptor is one of the `NDESC` slots. -/
theorem lt_ndesc_of_descriptor? {s : State} {k : Nat} {d : Descriptor} (h : s.descriptor? k = some d) : k < s.ndesc := by
  unfold descriptor? at h
  by_contra hk
  rw [List.getElem?_eq_none (Nat.le_of_not_lt hk)] at h
  cases h

end Sys2Proof.Machine.State
end

