-- ==== Sys2Proof/Laws/Ops.lean ====
section
/-! SUPPORT. One spec lemma per shared operation: the register map, reads and writes, the table, the completions. -/

namespace Sys2Proof.Machine

/-! ### The register map -/

@[simp] theorem Reg.ofNum?_num (r : Reg) : Reg.ofNum? r.num = some r := by cases r <;> rfl

/-- Every register has one number. -/
theorem Reg.ofNum?_inv {n : Fin 32} {r : Reg} (h : Reg.ofNum? n = some r) : n = r.num := by
  revert n r; decide

/-! ### Reads and writes -/

namespace State

variable (s : State)

/-- A read after a write of the same operand register gives the written value, hardwired bits 0 (R33). -/
theorem readReg_writeReg_same {r : Reg} (h : r.access = .readWrite) (v : Word) :
    (s.writeReg r v).readReg r = v &&& r.usedBits := by
  cases r <;> first | (cases h; done) | simp only [writeReg, readReg, stored, BitVec.and_assoc, BitVec.and_self]

/-- A write leaves every other register alone (R33). -/
theorem readReg_writeReg_other {r r' : Reg} (h : r' ≠ r) (v : Word) : (s.writeReg r v).readReg r' = s.readReg r' := by
  cases r <;> cases r' <;> first | rfl | exact absurd rfl h

/-! ### The table -/

@[simp] theorem ndesc_installSlot (k : Nat) (d : Descriptor) : (s.installSlot k d).ndesc = s.ndesc := by
  simp [ndesc]

/-- Installing fills the named slot and leaves the others alone (R58). -/
theorem descriptor?_installSlot {k : Nat} (hk : k < s.ndesc) (d : Descriptor) (j : Nat) :
    (s.installSlot k d).descriptor? j = if j = k then some d else s.descriptor? j := by
  unfold ndesc at hk
  by_cases h : j = k
  · subst h; simp [descriptor?, List.getElem?_set_self hk]
  · simp [descriptor?, List.getElem?_set_ne (Ne.symm h), h]

@[simp] theorem ndesc_resetEvent : s.resetEvent.ndesc = s.ndesc := by simp [ndesc]

@[simp] theorem ndesc_resetOf (n : Nat) : (resetOf n).ndesc = n := by simp [ndesc, resetOf]

/-- After reset every slot is empty (R150). -/
theorem descriptor?_replicate {t : State} {n : Nat} (h : t.table = List.replicate n none) (k : Nat) :
    t.descriptor? k = none := by
  simp only [descriptor?, h, List.getElem?_replicate]
  split <;> rfl

/-! ### Completions -/

/-- The error completion, field by field (R131). -/
theorem errorCompletion_eq (e : ErrCode) : s.errorCompletion e =
    { s with
      rsign := 0, rexp := 0, rman := 0, rfmt := 0, rcls := 0, rtexp := 0, rsv := 0, rerr := 0
      status := statusWord false e.code false } := rfl

@[simp] theorem descriptor?_errorCompletion (e : ErrCode) (k : Nat) :
    (s.errorCompletion e).descriptor? k = s.descriptor? k := rfl

@[simp] theorem ndesc_errorCompletion (e : ErrCode) : (s.errorCompletion e).ndesc = s.ndesc := rfl

@[simp] theorem descriptor?_clearResults (k : Nat) : s.clearResults.descriptor? k = s.descriptor? k := rfl

@[simp] theorem ndesc_clearResults : s.clearResults.ndesc = s.ndesc := rfl

end State

/-! ### The valid bits -/

/-- The valid bits of a table fit its length (R28). -/
theorem validBits_lt (l : List (Option Descriptor)) : validBits l < 2 ^ l.length := by
  induction l with
  | nil => simp [validBits]
  | cons d rest ih =>
    have hb : bit d.isSome ≤ 1 := by cases d <;> simp [bit]
    simp only [validBits, List.length_cons, Nat.pow_succ]
    omega

end Sys2Proof.Machine
end

