-- ==== Sys2Proof/Laws/Commands.lean ====
section
/-! SUPPORT. Everything a command can do, said once per command: each command answers a next state, by an error
completion or by its success completion, and the lemma names the conditions of both. -/

namespace Sys2Proof.Machine

variable {s t : State}

/-- `DESCLOAD` (R58): an error completion, or the staged descriptor in an empty slot and `STATUS` 0. -/
theorem execDescload_cases {slot : Nat} (h : execDescload slot s = .next t) :
    (∃ e : ErrCode, e ≠ .invalidInput ∧ t = s.errorCompletion e) ∨
    (∃ w, slot < s.ndesc ∧ s.descriptor? slot = none ∧ validate s.dstg = .ok w ∧
      t = (s.clearResults.installSlot slot (stagedDescriptor w s.dstg)).setStatus (statusWord false 0 false)) := by
  unfold execDescload at h
  split at h
  · cases h; exact .inl ⟨_, by decide, rfl⟩
  · rename_i hk
    split at h
    · cases h; exact .inl ⟨_, by decide, rfl⟩
    · rename_i hv
      split at h
      · rename_i e he
        cases h
        refine .inl ⟨e, ?_, rfl⟩
        rintro rfl
        unfold validate at he
        repeat' split at he
        all_goals cases he
      · rename_i w hw
        cases h
        refine .inr ⟨w, Nat.lt_of_not_le hk, ?_, hw, rfl⟩
        simpa [State.slotValid] using hv

/-- `DECODE` (R115): an error completion, or the pipeline's result under the slot's descriptor. -/
theorem execDecode_cases {slot : Nat} (h : execDecode slot s = .next t) :
    (∃ e : ErrCode, e ≠ .invalidInput ∧ t = s.errorCompletion e) ∨
    (∃ d, s.descriptor? slot = some d ∧ isNaN64 s.opa = false ∧
      t = (s.clearResults.writeDecoded (decodeValue d s.opa)).setStatus
        (statusWord true 0 (decodeValue d s.opa).ovf)) := by
  unfold execDecode at h
  split at h
  · cases h; exact .inl ⟨_, by decide, rfl⟩
  · split at h
    · cases h; exact .inl ⟨_, by decide, rfl⟩
    · rename_i d hd
      split at h
      · cases h; exact .inl ⟨_, by decide, rfl⟩
      · rename_i hn
        cases h
        exact .inr ⟨d, hd, by simpa using hn, rfl⟩

/-- `CLASSIFY` (R95): an error completion, or the Classifier's result. -/
theorem execClassify_cases (h : execClassify s = .next t) :
    (∃ e : ErrCode, e ≠ .invalidInput ∧ t = s.errorCompletion e) ∨
    (cewWidth s.cew ≤ 63 ∧ s.cexp.toNat < 2 ^ cewWidth s.cew ∧
      t = (s.clearResults.writeClass
        (classify s.cexp.toNat s.cman.toNat (cewWidth s.cew) (cbiasValue s.cbias))).setStatus
          (statusWord true 0 false)) := by
  unfold execClassify at h
  split at h
  · cases h; exact .inl ⟨_, by decide, rfl⟩
  · split at h
    · cases h; exact .inl ⟨_, by decide, rfl⟩
    · cases h; exact .inr ⟨by omega, by omega, rfl⟩

/-- The success path of `DECODE` (R115). -/
theorem execDecode_success {slot : Nat} {d : Descriptor} (hd : s.descriptor? slot = some d)
    (hn : isNaN64 s.opa = false) :
    execDecode slot s = .next ((s.clearResults.writeDecoded (decodeValue d s.opa)).setStatus
      (statusWord true 0 (decodeValue d s.opa).ovf)) := by
  have hk := State.lt_ndesc_of_descriptor? hd
  simp [execDecode, Nat.not_le_of_lt hk, hd, hn]

/-- The success path of `DESCLOAD` (R58). -/
theorem execDescload_success {slot : Nat} {w : NativeWidth} (hk : slot < s.ndesc) (he : s.slotValid slot = false)
    (hv : validate s.dstg = .ok w) :
    execDescload slot s =
      .next ((s.clearResults.installSlot slot (stagedDescriptor w s.dstg)).setStatus (statusWord false 0 false)) := by
  simp [execDescload, Nat.not_le_of_lt hk, he, hv]

/-- A descriptor that passes `validate` has a supported width, a consistent sum and, if it truncates, `T` in range
(R57). -/
theorem validate_ok {d : Word} {w : NativeWidth} (h : validate d = .ok w) :
    widthsConsistent d = true ∧ truncationInRange d = true ∧ nativeWidth? (dstgTW d).toNat = some w := by
  unfold validate at h
  split at h
  · cases h
  · rename_i h1
    split at h
    · cases h
    · rename_i h2
      split at h
      · cases h
      · rename_i w' hw
        cases h
        exact ⟨by simpa using h1, by simpa using h2, hw⟩

/-- A supported total width is the number of bits of its native width (R57). -/
theorem bits_of_nativeWidth? {n : Nat} {w : NativeWidth} (h : nativeWidth? n = some w) : w.bits = n := by
  unfold nativeWidth? at h
  split at h
  · cases h; subst_vars; rfl
  · split at h
    · cases h; subst_vars; rfl
    · split at h
      · cases h; subst_vars; rfl
      · cases h

end Sys2Proof.Machine
end

