-- ==== Sys2Proof/Laws/PerInstr.lean ====
section
/-! SUPPORT. The per-instruction family EncodedFields: the word of a well-formed command has its opcode in bits 7:0, its
slot in bits 11:8 and 0 in bits 63:12 (30_encoding.md R45, R46). -/

namespace Sys2Proof.Laws.EncodedFields

/-- `OPC` of a command (R46). -/
def opcode : Instr → Nat
  | .descload _ => 1
  | .decode _ => 2
  | .classify => 3

/-- `SLOT` of a command (R46). -/
def slotField : Instr → Nat
  | .descload slot => slot
  | .decode slot => slot
  | .classify => 0

/-- The number of the word is the opcode and the slot, and nothing above bit 11. -/
def Statement (i : Instr) : Prop :=
  i.wf = true → (encode i).toNat = opcode i + slotField i * 256 ∧ slotField i < 16

theorem encodeFields_toNat {opc : BitVec 8} {slot : Nat} (h : slot < 16) :
    (encodeFields opc slot).toNat = opc.toNat + slot * 256 := by
  have := opc.isLt
  simp only [encodeFields, BitVec.toNat_ofNat, Nat.shiftLeft_eq]
  omega

theorem descload (slot : Nat) : Statement (.descload slot) := by
  intro h
  have hs : slot < 16 := by simpa [Instr.wf, slotFits] using h
  exact ⟨encodeFields_toNat hs, hs⟩

theorem decode (slot : Nat) : Statement (.decode slot) := by
  intro h
  have hs : slot < 16 := by simpa [Instr.wf, slotFits] using h
  exact ⟨encodeFields_toNat hs, hs⟩

theorem classify : Statement .classify := by
  intro _
  exact ⟨encodeFields_toNat (by decide), by decide⟩

end Sys2Proof.Laws.EncodedFields
end

