-- ==== Sys2Proof/Laws/Pipeline.lean ====
section
/-! SUPPORT. One spec lemma per stage of the pipeline: the bounds of the packed pattern, what truncating and padding
does, and that no stage makes a NaN (42_value_reconstructor.md R87). -/

namespace Sys2Proof.Machine

/-! ### BitExtractor -/

/-- The native layout fills the width: `W = 1 + ew_n + mw_n` (R41). -/
theorem NativeWidth.bits_eq (w : NativeWidth) : w.bits = 1 + w.ewn + w.mwn := by cases w <;> rfl

/-- Packing gives a magnitude up to infinity under the operand's sign (R68, R71, R72, R73). -/
theorem packNarrow_shape (w : NativeWidth) (v : Word) :
    ∃ mag ≤ w.infMag, (packNarrow w v).pattern = w.withSign (sign64 v) mag := by
  unfold packNarrow packFinite
  split
  · exact ⟨_, Nat.le_refl _, rfl⟩
  · split
    · exact ⟨0, Nat.zero_le _, rfl⟩
    · split
      · rename_i h; exact ⟨_, Nat.le_of_lt h, rfl⟩
      · exact ⟨_, Nat.le_refl _, rfl⟩

/-- A non-NaN operand packs to a pattern of the native width that is no NaN: its magnitude is at most infinity's
(R87). -/
theorem pack_bounds (w : NativeWidth) {v : Word} (hv : isNaN64 v = false) :
    (pack w v).pattern < 2 ^ w.bits ∧ (pack w v).pattern % 2 ^ (w.bits - 1) ≤ w.infMag := by
  cases w with
  | w64 =>
    have h := (isNaN64_eq_false_iff v).1 hv
    exact ⟨v.isLt, h⟩
  | w32 =>
    obtain ⟨mag, hm, hp⟩ := packNarrow_shape .w32 v
    have hi : NativeWidth.infMag .w32 = 0x7F800000 := rfl
    have := bit_le_one (sign64 v)
    simp only [pack, hp, NativeWidth.withSign, NativeWidth.bits, Nat.shiftLeft_eq, hi] at hm ⊢
    omega
  | w16 =>
    obtain ⟨mag, hm, hp⟩ := packNarrow_shape .w16 v
    have hi : NativeWidth.infMag .w16 = 0x7C00 := rfl
    have := bit_le_one (sign64 v)
    simp only [pack, hp, NativeWidth.withSign, NativeWidth.bits, Nat.shiftLeft_eq, hi] at hm ⊢
    omega

/-- Truncating and padding clears the low `W - L` bits (R75, R83). -/
theorem pad_truncate (d : Descriptor) (p : Nat) :
    pad d (truncate d p) = p / 2 ^ (d.width.bits - d.seqLen) * 2 ^ (d.width.bits - d.seqLen) := by
  rw [pad, truncate, Nat.shiftLeft_eq, Nat.shiftRight_eq_div_pow]

theorem pad_truncate_le (d : Descriptor) (p : Nat) : pad d (truncate d p) ≤ p := by
  rw [pad_truncate]; exact Nat.div_mul_le_self _ _

/-- Clearing the low `k` bits commutes with taking the low `n` bits. -/
theorem clear_low_mod (p k n : Nat) (h : k ≤ n) : p / 2 ^ k * 2 ^ k % 2 ^ n = p % 2 ^ n / 2 ^ k * 2 ^ k := by
  obtain ⟨j, rfl⟩ := Nat.exists_eq_add_of_le h
  rw [Nat.pow_add, Nat.mul_comm (2 ^ k), Nat.mul_mod_mul_right, Nat.mod_mul_left_div_self]

/-- Clearing low bits never makes the magnitude larger, whatever the number of bits. -/
theorem pad_truncate_mod_le (d : Descriptor) (p : Nat) :
    pad d (truncate d p) % 2 ^ (d.width.bits - 1) ≤ p % 2 ^ (d.width.bits - 1) := by
  rw [pad_truncate]
  by_cases h : d.width.bits - d.seqLen ≤ d.width.bits - 1
  · rw [clear_low_mod _ _ _ h]
    exact Nat.div_mul_le_self _ _
  · obtain ⟨j, hj⟩ := Nat.exists_eq_add_of_le (Nat.le_of_not_le h)
    rw [hj, Nat.pow_add, Nat.mul_comm (2 ^ (d.width.bits - 1)), ← Nat.mul_assoc, Nat.mul_mod_left]
    exact Nat.zero_le _

/-- The extracted fields fit their widths (R76). -/
theorem seqExp_lt (d : Descriptor) (s : Nat) : seqExp d s < 2 ^ d.ew.toNat := bitField_lt _ _ _

theorem seqMan_lt (d : Descriptor) (s : Nat) : seqMan d s < 2 ^ d.keptMan := bitField_lt _ _ _

theorem seqSign_lt (d : Descriptor) (s : Nat) : seqSign d s < 2 := bitField_lt _ _ 1

/-! ### Classifier -/

/-- The five results of the Classifier (R94). -/
theorem classify_cases (e m ew : Nat) (bias : Int) :
    (classify e m ew bias = { cat := .zero, impl := some false, texp := none } ∧ e = 0 ∧ m = 0) ∨
    (classify e m ew bias = { cat := .subnormal, impl := some false, texp := some (1 - bias) } ∧ e = 0 ∧ m ≠ 0) ∨
    (classify e m ew bias = { cat := .normal, impl := some true, texp := some ((e : Int) - bias) } ∧
      0 < e ∧ e < emax ew) ∨
    (classify e m ew bias = { cat := .infinity, impl := none, texp := none } ∧ 0 < e ∧ emax ew ≤ e ∧ m = 0) ∨
    (classify e m ew bias = { cat := .nan, impl := none, texp := none } ∧ 0 < e ∧ emax ew ≤ e ∧ m ≠ 0) := by
  by_cases he : e = 0 <;> by_cases hm : m = 0 <;> by_cases hx : e < emax ew <;>
    simp [classify, he, hm, hx, Nat.pos_of_ne_zero] <;> omega

/-- `RCLS` of a classification is one of the values R24 lists, and `RTEXP` is 0 unless `TEXP_V` is 1. -/
theorem rcls_of_classify (e m ew : Nat) (bias : Int) :
    rclsWord (classify e m ew bias) ∈ rclsValues ∧
      (rclsTEXPV (rclsWord (classify e m ew bias)) = false → rtexpWord (classify e m ew bias) = 0) := by
  rcases classify_cases e m ew bias with ⟨h, -⟩ | ⟨h, -⟩ | ⟨h, -⟩ | ⟨h, -⟩ | ⟨h, -⟩ <;> rw [h] <;>
    exact ⟨by simp [rclsWord, rclsValues, Category.code, bit], by simp [rclsWord, rclsTEXPV, rtexpWord, Category.code, bit]⟩

/-! ### ValueReconstructor -/

/-- Decoding a native pattern that is no NaN gives no NaN (R87). -/
theorem unpackNarrow_not_nan {w : NativeWidth} (hw : w ≠ .w64) (q : Nat) : isNaN64 (unpackNarrow w q) = false := by
  have key : ∀ {s : Bool} {e f : Nat}, e < 2048 → f < 2 ^ 52 → (e = 2047 → f = 0) → isNaN64 (mk64 s e f) = false := by
    intro s e f he hf h
    obtain ⟨-, h2, h3⟩ := mk64_fields (s := s) he hf
    simp only [isNaN64, h2, h3, Bool.and_eq_false_iff, decide_eq_false_iff_not, not_not]
    by_cases hx : e = 2047
    · exact .inr (h hx)
    · exact .inl hx
  have hm : bitField q 0 w.mwn < 2 ^ w.mwn := bitField_lt _ _ _
  have he : bitField q w.mwn w.ewn < 2 ^ w.ewn := bitField_lt _ _ _
  simp only [unpackNarrow]
  generalize bitField q 0 w.mwn = mn at hm ⊢
  generalize bitField q w.mwn w.ewn = en at he ⊢
  split
  · exact key (by omega) (by omega) (fun _ => rfl)
  · rename_i hne
    split
    · split
      · exact key (by omega) (by omega) (by omega)
      · rename_i hmn
        obtain ⟨h1, h2, h3⟩ := bitlen_bounds (Nat.pos_of_ne_zero hmn)
        have hk : bitlen mn ≤ w.mwn := (bitlen_le_iff _ _).2 hm
        have hkm : w.mwn ≤ 23 := by cases w <;> first | exact absurd rfl hw | decide
        have hf : (mn - 2 ^ (bitlen mn - 1)) <<< (52 - (bitlen mn - 1)) < 2 ^ 52 := by
          rw [Nat.shiftLeft_eq]
          have hpow : 2 ^ bitlen mn = 2 ^ (bitlen mn - 1) + 2 ^ (bitlen mn - 1) := by
            conv_lhs => rw [show bitlen mn = bitlen mn - 1 + 1 by omega, Nat.pow_succ]
            omega
          calc (mn - 2 ^ (bitlen mn - 1)) * 2 ^ (52 - (bitlen mn - 1))
              < 2 ^ (bitlen mn - 1) * 2 ^ (52 - (bitlen mn - 1)) :=
                Nat.mul_lt_mul_of_pos_right (by omega) (Nat.two_pow_pos _)
            _ = 2 ^ 52 := by rw [← Nat.pow_add]; congr 1; omega
        have hb : w.biasn = 127 ∨ w.biasn = 15 := by
          cases w <;> first | exact absurd rfl hw | exact .inl rfl | exact .inr rfl
        have hx : subnormalExp64 w mn < 2047 := by unfold subnormalExp64; omega
        exact key (by omega) hf (by omega)
    · cases w with
      | w64 => exact absurd rfl hw
      | w32 =>
        simp only [NativeWidth.mwn, NativeWidth.ewn, ones] at hm he hne
        refine key (by simp only [NativeWidth.biasn]; omega) ?_ (by simp only [NativeWidth.biasn]; omega)
        simp only [NativeWidth.mwn, Nat.shiftLeft_eq]; omega
      | w16 =>
        simp only [NativeWidth.mwn, NativeWidth.ewn, ones] at hm he hne
        refine key (by simp only [NativeWidth.biasn]; omega) ?_ (by simp only [NativeWidth.biasn]; omega)
        simp only [NativeWidth.mwn, Nat.shiftLeft_eq]; omega

/-- The stored value is never a NaN (R26, R87). -/
theorem storedValue_not_nan (d : Descriptor) {v : Word} (hv : isNaN64 v = false) :
    isNaN64 (storedValue d v) = false := by
  cases hw : d.width with
  | w16 => simp only [storedValue, hw, unpack]; exact unpackNarrow_not_nan (by decide) _
  | w32 => simp only [storedValue, hw, unpack]; exact unpackNarrow_not_nan (by decide) _
  | w64 =>
    obtain ⟨h1, h2⟩ := pack_bounds d.width hv
    have h3 := pad_truncate_mod_le d (pack d.width v).pattern
    have h4 := pad_truncate_le d (pack d.width v).pattern
    simp only [storedValue, extracted, hw, unpack] at h1 h2 h3 h4 ⊢
    rw [isNaN64_eq_false_iff]
    have hi : NativeWidth.infMag .w64 = 2047 * 2 ^ 52 := rfl
    simp only [NativeWidth.bits, hi] at h1 h2 h3 h4
    simp only [BitVec.toNat_ofNat]
    omega

/-! ### ErrorComputer -/

/-- `enc64_exact` of a representable integer is a finite pattern (R104, R106). -/
theorem enc64Nat_lt {n : Nat} (h : representable64 n = true) : enc64Nat n < 2047 * 2 ^ 52 := by
  simp only [representable64, Bool.and_eq_true, decide_eq_true_eq] at h
  unfold enc64Nat
  split
  · rename_i hk
    have := (bitlen_le_iff n 52).1 hk
    omega
  · rename_i hk
    have hn : n < 2 ^ bitlen n := (bitlen_le_iff n _).1 (Nat.le_refl _)
    have hs : n >>> (bitlen n - 53) < 2 ^ 53 := by
      rw [Nat.shiftRight_eq_div_pow, Nat.div_lt_iff_lt_mul (Nat.two_pow_pos _), ← Nat.pow_add]
      rwa [show 53 + (bitlen n - 53) = bitlen n by omega]
    rw [Nat.shiftLeft_eq]
    omega

/-- A free error is a finite, nonzero, non-negative pattern (R104, R162). -/
theorem freeError_bounds (n : Fin Config.freeErrorCount) :
    0 < (freeError n).toNat ∧ (freeError n).toNat < 2047 * 2 ^ 52 := by
  have : n.val < 0x7FEFFFFFFFFFFFFF := n.isLt
  simp only [freeError, BitVec.toNat_ofNat]
  omega

/-- Of an infinite operand or an infinite stored value the reported error is +inf (R103, R115). -/
theorem absError_of_infinite {v sv : Word} (h : (isInf64 sv || isInf64 v) = true) :
    absError v sv = 0x7FF0000000000000 := by simp only [absError, h, ↓reduceIte, plusInf64]

/-- Of a finite operand and a finite stored value the reported error is a finite, non-negative pattern (R104), for every
value of the free value. -/
theorem absError_of_finite {v sv : Word} (h : (isInf64 sv || isInf64 v) = false) :
    (absError v sv).toNat < 2047 * 2 ^ 52 := by
  simp only [absError, h, Bool.false_eq_true, ↓reduceIte]
  split
  · rename_i h
    have := enc64Nat_lt h
    rw [BitVec.toNat_ofNat]
    omega
  · exact (freeError_bounds _).2

/-- The reported error is a non-negative pattern up to +inf (R27, R104). -/
theorem absError_le (v sv : Word) : (absError v sv).toNat ≤ 2047 * 2 ^ 52 := by
  cases h : isInf64 sv || isInf64 v
  · exact (absError_of_finite h).le
  · rw [absError_of_infinite h]; decide

end Sys2Proof.Machine
end

