-- ==== Sys2Proof/Laws/Port.lean ====
section
/-! SUPPORT. Everything one host transaction can do, said once. -/

namespace Sys2Proof.Machine

variable {s t : State}

/-- A read that has a meaning (R32). -/
theorem regRead_readable {n : Fin 32} {r : Reg} (h : Reg.ofNum? n = some r) (ha : r.access ≠ .writeOnly) :
    regRead n s = .next { s with observed := s.observed ++ [s.readReg r] } := by
  unfold regRead
  rw [h]
  cases r <;> first | rfl | exact absurd rfl ha

/-- A write of an operand register (R33). -/
theorem regWrite_operand {n : Fin 32} {r : Reg} (h : Reg.ofNum? n = some r) (ha : r.access = .readWrite) (v : Word) :
    regWrite n v s = .next (s.writeReg r v) := by
  unfold regWrite
  rw [h]
  cases r <;> first | rfl | cases ha

/-- A write of `CMD` (R17). -/
theorem regWrite_cmd (v : Word) : regWrite 8 v s = runCommandWord v s := rfl

/-- What a transaction that answers a next state did: a read, an operand write, a command, an illegal command word, or
the reset event. -/
theorem transact_cases {x : Txn} (h : transact x s = .next t) :
    (∃ n r, x = .read n ∧ Reg.ofNum? n = some r ∧ t = { s with observed := s.observed ++ [s.readReg r] }) ∨
    (∃ n v r, x = .write n v ∧ Reg.ofNum? n = some r ∧ r.access = .readWrite ∧ t = s.writeReg r v) ∨
    (∃ v i, x = .write 8 v ∧ decodeWord v = .ok i ∧ exec i s = .next t) ∨
    (∃ v e, x = .write 8 v ∧ decodeWord v = .error e ∧ t = s.errorCompletion .illegal) ∨
    (x = .reset ∧ t = s.resetEvent) := by
  cases x with
  | read n =>
    simp only [transact, regRead] at h
    split at h
    · cases h
    · rename_i r hr
      split at h
      · cases h
      all_goals cases h; exact .inl ⟨n, r, rfl, hr, rfl⟩
  | write n v =>
    simp only [transact, regWrite] at h
    split at h
    · cases h
    · rename_i r hr
      split at h
      · cases h
      · rename_i ha
        have hn : n = 8 := by
          have := Reg.ofNum?_inv hr
          cases r <;> first | exact this | cases ha
        subst hn
        simp only [runCommandWord] at h
        split at h
        · rename_i i hi; exact .inr (.inr (.inl ⟨v, i, rfl, hi, h⟩))
        · rename_i e he; cases h; exact .inr (.inr (.inr (.inl ⟨v, e, rfl, he, rfl⟩)))
      · rename_i ha; cases h; exact .inr (.inl ⟨n, v, r, rfl, hr, ha, rfl⟩)
  | reset => cases h; exact .inr (.inr (.inr (.inr ⟨rfl, rfl⟩)))

/-- What a step that answers a next state did: nothing, for want of a transaction, or the first transaction. -/
theorem step_cases (h : step s = .next t) :
    (s.script = [] ∧ t = s) ∨ (∃ x rest, s.script = x :: rest ∧ transact x { s with script := rest } = .next t) := by
  unfold step hostStep at h
  split at h
  · rename_i hs; cases h; exact .inl ⟨hs, rfl⟩
  · rename_i x rest hs; exact .inr ⟨x, rest, hs, h⟩

/-- A step with a transaction to perform performs it. -/
theorem step_of_script {x : Txn} {rest : List Txn} (h : s.script = x :: rest) :
    step s = transact x { s with script := rest } := by
  simp only [step, hostStep, h]

end Sys2Proof.Machine
end

