-- ==== Sys2Proof/Tests/Slice0.lean ====
section
/-! SUPPORT. The model's own tests: ill-formed terms the checks refuse, command words written out from the spec's
encoding, at most two tests a command (expected values from 95_test_vectors.md), and for each statement with hypotheses a
witness that meets them. -/

namespace Sys2Proof.Tests

open Sys2Proof.Machine

/-- A unit of eight slots whose slot 0 holds `d`, with the given `OPA`. -/
def unitWith (d : Descriptor) (v : Word) : State :=
  { State.resetOf 8 with table := some d :: List.replicate 7 none, opa := v }

/-- A unit of eight empty slots with `DSTG` as given. -/
def staged (v : Word) : State := { State.resetOf 8 with dstg := v }

/-- A fresh unit with the `CLASSIFY` operands as given. -/
def fields (e m ew bias : Word) : State := { State.resetOf 8 with cexp := e, cman := m, cew := ew, cbias := bias }

/-- A fresh unit whose host has the given script. -/
def hostScript (l : List Txn) : State := { State.resetOf 8 with script := l }

/-- The state an outcome goes to, for tests on single fields. -/
def after : Host.Outcome State Fault Refusal → State
  | .next s => s
  | .fault _ => State.resetOf 0
  | .refused _ => State.resetOf 0

/-! ### WellFormed refuses ill-formed terms -/

theorem test_wf_refuses_descload_slot : (Instr.descload 16).wf = false := by decide

theorem test_wf_refuses_decode_slot : (Instr.decode 16).wf = false := by decide

/-! ### Command words, bit by bit from R45 and R46 -/

/-- `OPC` = 0x01, `SLOT` = 5. -/
theorem test_decodes_descload :
    decodeWord 0b0000000000000000000000000000000000000000000000000000010100000001 = .ok (.descload 5) := by decide

/-- `OPC` = 0x02, `SLOT` = 10. -/
theorem test_decodes_decode :
    decodeWord 0b0000000000000000000000000000000000000000000000000000101000000010 = .ok (.decode 10) := by decide

/-- `OPC` = 0x03, `SLOT` = 0. -/
theorem test_decodes_classify :
    decodeWord 0b0000000000000000000000000000000000000000000000000000000000000011 = .ok .classify := by decide

/-- Vector I6: bit 63 set. -/
theorem test_refuses_reserved_bit :
    decodeWord 0b1000000000000000000000000000000000000000000000000000000000000010 = .error .reservedBits := by decide

/-- The table's row `DECODE` through `withFetchWord`, as the first command after reset: vector E1. -/
theorem test_first_command_after_reset :
    (after (step (State.reset.withFetchWord 64 0x2))).status = 0x050 := by decide

/-! ### The commands -/

/-- Vector L4: a truncating descriptor goes into slot 3. -/
theorem test_descload_t19 :
    (after (exec (.descload 3) (staged 0x0000007F13970820))).descriptor? 3 =
      some { width := .w32, ew := 8, mw := 23, tp := true, t := 19, bias := 127 } := by decide

/-- Vector L8: the sum fails and the width is unsupported; `ERR_CONFIG` wins. -/
theorem test_descload_priority : (after (exec (.descload 0) (staged 0x0000007F000A0818))).status = 0x010 := by decide

/-- Vector V42: just above the tie 2^-25 rounds up to the smallest half subnormal. -/
theorem test_decode_half_subnormal :
    let t := after (exec (.decode 0) (unitWith ExampleSet.d16 0x3E60000000000001))
    (t.rman, t.rcls, t.rtexp, t.rsv, t.rerr, t.status) =
      (0x1, 0x62, 0xFFFFFFFFFFFFFFF2, 0x3E70000000000000, 0x3E5FFFFFFFFFFFFE, 0x001) := by decide +kernel

/-- Vector V94: the largest single truncated to 16 bits. -/
theorem test_decode_truncates :
    let t := after (exec (.decode 0) (unitWith ExampleSet.t16 0x47EFFFFFE0000000))
    (t.rexp, t.rman, t.rfmt, t.rsv, t.rerr) =
      (0xFE, 0x7F, 0x20100708, 0x47EFE00000000000, 0x476FFFE000000000) := by decide +kernel

/-- Vector K29: the one true exponent that wraps. -/
theorem test_classify_wraps :
    (after (exec .classify (fields 0x7FFFFFFFFFFFFFFE 0 63 0xFFFFFFFE))).rtexp = 0x8000000000000000 := by decide

/-- Vector K16: exponent width 1 has no Normal. -/
theorem test_classify_width_one : (after (exec .classify (fields 1 7 1 0))).rcls = 0x05 := by decide

/-- Vector L25: the hardwired bits of `DSTG`. -/
theorem test_dstg_hardwired :
    (after (transact (.write 1 0xFFFFFFFFFFFFFFFF) State.reset)).readReg .dstg = 0xFFFFFFFF7FFF7F7F := by decide

/-! ### Witnesses: every hypothesis of a statement is met, each clause at a boundary -/

/-- DecodeOfEncode. -/
theorem witness_DecodeOfEncode :
    (Instr.descload 15).wf = true ∧ (Instr.decode 15).wf = true ∧ Instr.classify.wf = true := by decide

/-- EncodeOfDecode; StepRunsDecodedCommand, second and third clause. -/
theorem witness_EncodeOfDecode :
    decodeWord 0xF02 = .ok (.decode 15) ∧ decodeTableWord 64 0xF02 = some (.decode 15) := by decide

/-- IllegalWordRaisesErrIllegal, first clause: the words next to the legal ones. -/
theorem witness_IllegalWord_noRow : ∀ k : Fin 5,
    let c := ([0x0, 0x4, 0x103, 0x1001, 0x8000000000000002] : List Word)[k]
    c &&& 0xFFFFFFFFFFFFF0FF ≠ 0x1 ∧ c &&& 0xFFFFFFFFFFFFF0FF ≠ 0x2 ∧ c ≠ 0x3 := by decide

/-- IllegalWordRaisesErrIllegal, third clause: the first and the last slot number outside eight slots. -/
theorem witness_IllegalWord_slot :
    8 < 16 ∧ State.reset.ndesc ≤ 8 ∧ 15 < 16 ∧ State.reset.ndesc ≤ 15 ∧
      (0x801 : Word) = BitVec.ofNat 64 (0x01 + 8 * 256) ∧ (0xF02 : Word) = BitVec.ofNat 64 (0x02 + 15 * 256) := by decide

/-- StepRunsDecodedCommand, first and second clause. -/
theorem witness_StepRuns :
    (hostScript [.write 8 0xF02]).script = .write 8 0xF02 :: [] ∧ decodeWord 0xF02 = .ok (.decode 15) := by decide

/-- IdleUnitDoesNothing. -/
theorem witness_IdleUnit : State.reset.script = [] := by decide

/-- RegReadReturnsRegister: each readable register of a unit with all bits set somewhere. -/
theorem witness_RegRead :
    let s := { unitWith ExampleSet.d16 0xFFFFFFFFFFFFFFFF with dstg := 0xFFFFFFFFFFFFFFFF, status := 0x101, rcls := 0x73 }
    ∀ k : Fin 16,
      let p := ([(0, 0xFFFFFFFFFFFFFFFF), (1, 0xFFFFFFFF7FFF7F7F), (2, 0), (3, 0), (4, 0), (5, 0), (9, 0x101), (10, 0x1),
        (16, 0), (17, 0), (18, 0), (19, 0), (20, 0x73), (21, 0), (22, 0), (23, 0)] : List (Fin 32 × Word))[k]
      (p.1 = 0 ∧ p.2 = s.opa) ∨ (p.1 = 1 ∧ p.2 = s.dstg &&& 0xFFFFFFFF7FFF7F7F) ∨ (p.1 = 2 ∧ p.2 = s.cexp) ∨
      (p.1 = 3 ∧ p.2 = s.cman) ∨ (p.1 = 4 ∧ p.2 = s.cew &&& 0x7F) ∨ (p.1 = 5 ∧ p.2 = s.cbias &&& 0xFFFFFFFF) ∨
      (p.1 = 9 ∧ p.2 = s.status &&& 0x1F1) ∨ (p.1 = 10 ∧ p.2 = s.dvalid) ∨ (p.1 = 16 ∧ p.2 = s.rsign &&& 0x1) ∨
      (p.1 = 17 ∧ p.2 = s.rexp) ∨ (p.1 = 18 ∧ p.2 = s.rman) ∨ (p.1 = 19 ∧ p.2 = s.rfmt &&& 0x7F7F7F7F) ∨
      (p.1 = 20 ∧ p.2 = s.rcls &&& 0x77) ∨ (p.1 = 21 ∧ p.2 = s.rtexp) ∨ (p.1 = 22 ∧ p.2 = s.rsv) ∨
      (p.1 = 23 ∧ p.2 = s.rerr) := by decide +kernel

/-- RegWriteReplacesWritableBits: a word that decodes and one that does not. -/
theorem witness_RegWrite : decodeWord 0x3 = .ok .classify ∧ decodeWord 0x4 = .error .unassignedOpcode := by decide

/-- MeaninglessAccessesRefused: the clauses at the ends of their ranges, and a refused transaction. -/
theorem witness_Meaningless :
    (∀ n ∈ ([6, 7, 11, 15, 24, 31] : List (Fin 32)), n = 6 ∨ n = 7 ∨ (11 ≤ n.val ∧ n.val ≤ 15) ∨ 24 ≤ n.val) ∧
    (∀ n ∈ ([9, 10, 16, 23] : List (Fin 32)), n = 9 ∨ n = 10 ∨ (16 ≤ n.val ∧ n.val ≤ 23)) := by decide

theorem witness_Meaningless_refused : transact (.read 8) State.reset = .refused (.readOfWriteOnly 8) := rfl

/-- MeaningfulTransactionsComplete and MeaningfulScriptsRunToTheEnd. -/
theorem witness_Meaningful :
    let s := hostScript [.write 5 1, .write 8 0, .read 23, .reset]
    s.script = .write 5 1 :: [.write 8 0, .read 23, .reset] ∧ ∀ x ∈ s.script, x.meaningful = true := by decide

/-- DvalidViewsTable: slot numbers around the length of the table. -/
theorem witness_Dvalid : State.reset.ndesc ≤ 16 ∧ 0 < 64 ∧ 7 < 64 ∧ 8 < 64 ∧ 63 < 64 := by decide

/-- PseudoInstructionExpansions. -/
theorem witness_Pseudo : 15 < 16 := by decide

/-- LoadedDescriptorIsUsedAtOnce: the last slot. -/
theorem witness_LoadedDescriptor :
    7 < 16 ∧ 7 < State.reset.ndesc ∧ State.reset.slotValid 7 = false ∧
      (validate ((0x0000007F13970820 : Word) &&& 0xFFFFFFFF7FFF7F7F)).toOption = some .w32 ∧
      isNaN64 0x7FF0000000000000 = false := by decide

/-- ResetValuesAreZero. -/
theorem witness_ResetValues : Reg.ofNum? 0 = some .opa ∧ Reg.ofNum? 23 = some .rerr := by decide

/-- CommandFrame and DecodeErrorsInOrder, second clause: each command answers a next state on the reset state. -/
theorem witness_CommandFrame :
    exec (.descload 0) State.reset = .next (State.reset.errorCompletion .config) ∧
    exec (.decode 0) State.reset = .next (State.reset.errorCompletion .slot) ∧
    exec .classify State.reset = .next { State.reset with rcls := 0x21, status := 0x001 } := ⟨rfl, rfl, rfl⟩

/-- ValidSlotIsImmutable: both clauses on a unit whose host names the valid slot again. -/
theorem witness_ValidSlot :
    (unitWith ExampleSet.d16 0).descriptor? 0 = some ExampleSet.d16 ∧ Txn.write 8 0x001 ≠ .reset := by decide

theorem witness_ValidSlot_step :
    transact (.write 8 0x001) (unitWith ExampleSet.d16 0) = .next { unitWith ExampleSet.d16 0 with status := 0x050 } := rfl

/-- DescloadInstallsDescriptor: `T19`, and `D32`, in the last slot. -/
theorem witness_DescloadInstalls : ∀ k : Fin 2,
    let v := ([0x0000007F13970820, 0x0000007F00170820] : List Word)[k]
    let s := staged v
    7 < s.ndesc ∧ s.slotValid 7 = false ∧ (s.dstg.extractLsb' 0 7).toNat = NativeWidth.bits .w32 ∧
      NativeWidth.bits .w32 = 1 + (s.dstg.extractLsb' 8 7).toNat + (s.dstg.extractLsb' 16 7).toNat ∧
      (s.dstg.getLsbD 23 = true →
        1 + (s.dstg.extractLsb' 8 7).toNat < (s.dstg.extractLsb' 24 7).toNat ∧
          (s.dstg.extractLsb' 24 7).toNat < NativeWidth.bits .w32) := by decide

/-- DescloadErrorsInOrder, first and second clause. -/
theorem witness_DescloadErrors_slot :
    State.reset.ndesc ≤ 8 ∧ (unitWith ExampleSet.d16 0).slotValid 0 = true := by decide

/-- DescloadErrorsInOrder, the width sum (vector L6). -/
theorem witness_DescloadErrors_sum :
    let s := staged 0x0000007F00160820
    7 < s.ndesc ∧ s.slotValid 7 = false ∧
      (dstgTW s.dstg).toNat ≠ 1 + (dstgEW s.dstg).toNat + (dstgMW s.dstg).toNat := by decide

/-- DescloadErrorsInOrder, the truncation range at both ends (vectors L10, L13). -/
theorem witness_DescloadErrors_truncation : ∀ k : Fin 2,
    let v := ([0x0000007F09970820, 0x0000007F20970820] : List Word)[k]
    let s := staged v
    7 < s.ndesc ∧ s.slotValid 7 = false ∧ dstgTP s.dstg = true ∧
      ¬(1 + (dstgEW s.dstg).toNat < (dstgT s.dstg).toNat ∧ (dstgT s.dstg).toNat < (dstgTW s.dstg).toNat) := by decide

/-- DescloadErrorsInOrder, the unsupported width (vectors L7, L20). -/
theorem witness_DescloadErrors_width : ∀ k : Fin 2,
    let v := ([0x0000007F000F0818, 0x00000000003F3F7F] : List Word)[k]
    let s := staged v
    7 < s.ndesc ∧ s.slotValid 7 = false ∧
      (dstgTW s.dstg).toNat = 1 + (dstgEW s.dstg).toNat + (dstgMW s.dstg).toNat ∧ dstgTP s.dstg = false ∧
      (dstgTW s.dstg).toNat ≠ 16 ∧ (dstgTW s.dstg).toNat ≠ 32 ∧ (dstgTW s.dstg).toNat ≠ 64 := by decide

/-- ClassifyResult: the five categories at the ends of their ranges (vectors K1 to K6, K30). -/
theorem witness_ClassifyResult : ∀ k : Fin 8,
    let p := ([(0, 0, 8), (0, 1, 8), (1, 0, 8), (0xFE, 1, 8), (0xFF, 0, 8), (0xFF, 1, 8),
      (0x7FFFFFFFFFFFFFFF, 0, 63), (0, 0, 0)] : List (Word × Word × Word))[k]
    let s := fields p.1 p.2.1 p.2.2 127
    (s.cew.extractLsb' 0 7).toNat ≤ 63 ∧ s.cexp.toNat < 2 ^ (s.cew.extractLsb' 0 7).toNat := by decide

/-- ClassifyDomainErrors: each alternative at its boundary (vectors K9, K8). -/
theorem witness_ClassifyDomain :
    63 < ((fields 0 0 64 0).cew.extractLsb' 0 7).toNat ∧
    2 ^ ((fields 0x100 0 8 0).cew.extractLsb' 0 7).toNat ≤ (fields 0x100 0 8 0).cexp.toNat := by decide

/-- SmallExponentWidths. -/
theorem witness_SmallWidths : 0 < 2 ^ 1 ∧ 1 < 2 ^ 1 ∧ 2 ≤ 2 := by decide

/-- ClassifyTrueExponent: the largest Normal of 63 exponent bits under the most negative bias (`witness_ClassifyResult`
meets its hypotheses at the other widths). -/
theorem witness_ClassifyTexp :
    let s := fields 0x7FFFFFFFFFFFFFFE 0 63 0x80000000
    (s.cew.extractLsb' 0 7).toNat = 63 ∧ (s.cbias.extractLsb' 0 32).toInt = -2147483648 ∧
      s.cexp.toNat < 9223372036854775808 := by decide

/-- DecodeResult, DecodeIsPure, OverflowFlagMeaning: a valid slot and a non-NaN operand, finite and infinite. -/
theorem witness_DecodeResult :
    (unitWith ExampleSet.t19 0x3FB999999999999A).descriptor? 0 = some ExampleSet.t19 ∧
      isNaN64 (unitWith ExampleSet.t19 0x3FB999999999999A).opa = false ∧
      isNaN64 (unitWith ExampleSet.t19 0xFFF0000000000000).opa = false := by decide

/-- DecodeErrorsInOrder, first clause. -/
theorem witness_DecodeErrors :
    State.reset.ndesc ≤ 8 ∧ State.reset.slotValid 0 = false ∧
      (unitWith ExampleSet.d64 0x7FF8000000000000).slotValid 0 = true ∧
      isNaN64 (unitWith ExampleSet.d64 0x7FF0000000000001).opa = true := by decide

/-- TruncationKeepsExponentField. -/
theorem witness_Truncation : ExampleSet.t16.valid = true ∧ ExampleSet.t16.tp = true := by decide

/-- NanCategoryReachability and DecodeTrueExponentExact; the second clause of the first with XN in the slot. -/
theorem witness_NativeLayout :
    (unitWith ExampleSet.t19 0x3FF0000000000000).descriptor? 0 = some ExampleSet.t19 ∧ ExampleSet.t19.valid = true ∧
      ExampleSet.t19.ew.toNat = NativeWidth.ewn ExampleSet.t19.width ∧ isNaN64 0x3FF0000000000000 = false ∧
      (unitWith ExampleSet.xn 0x7FF0000000000000).descriptor? 0 = some ExampleSet.xn ∧
      (unitWith ExampleSet.d64 0x000FFFFFFFFFFFFF).descriptor? 0 = some ExampleSet.d64 := by decide

/-- StoredValueDependencies. -/
theorem witness_StoredValue :
    ExampleSet.d64.width = ExampleSet.xn.width ∧ ExampleSet.d64.tp = ExampleSet.xn.tp ∧
      ExampleSet.d64.t = ExampleSet.xn.t ∧ ExampleSet.t16.valid = true ∧
      2 ^ 32 - 1 < 2 ^ NativeWidth.bits ExampleSet.t16.width := by decide

/-- OrdIsValue and EncodeExactInvertsOrd: the largest finite pattern, and one. -/
theorem witness_Ord :
    isFinite64 0x7FEFFFFFFFFFFFFF = true ∧ sign64 0x7FEFFFFFFFFFFFFF = false ∧ representable64 1 = true := by decide

/-- InfiniteStoredValueHasInfiniteError: 1e10 under `D16`. -/
theorem witness_InfiniteStored :
    let s := unitWith ExampleSet.d16 0x4202A05F20000000
    s.descriptor? 0 = some ExampleSet.d16 ∧ isNaN64 s.opa = false ∧
      isInf64 (storedValue ExampleSet.d16 s.opa) = true := by decide +kernel

/-- ErrorIsNonNegative: an infinite and a finite operand, an infinite and a finite stored value, in every pairing. -/
theorem witness_ErrorNonNegative :
    isNaN64 0xFFEFFFFFFFFFFFFF = false ∧ isFinite64 0xFFEFFFFFFFFFFFFF = true ∧
      isNaN64 0x7FF0000000000000 = false ∧ isFinite64 0 = true ∧ isNaN64 0 = false ∧
      isInf64 0x7FF0000000000000 = true := by decide

/-- InexactnessIsVisible and TruncationIntoExponentField: an infinite operand stored as 2.0 under XM2. -/
theorem witness_Inexactness :
    let s := unitWith ExampleSet.xm2 0x7FF0000000000000
    s.descriptor? 0 = some ExampleSet.xm2 ∧ ExampleSet.xm2.valid = true ∧ isNaN64 s.opa = false ∧
      storedValue ExampleSet.xm2 s.opa = 0x4000000000000000 ∧ isFinite64 0x4000000000000000 = true := by decide +kernel

/-- InfinityIsStoredAsInfinity: -inf, and 1e10, which overflows, under `D16`. -/
theorem witness_Infinity :
    (unitWith ExampleSet.d16 0).descriptor? 0 = some ExampleSet.d16 ∧ ExampleSet.d16.valid = true ∧
      ExampleSet.d16.keepsNativeExp = true ∧ isInf64 0xFFF0000000000000 = true ∧
      (pack .w16 0x4202A05F20000000).ovf = true ∧ isNaN64 0x4202A05F20000000 = false := by decide +kernel

/-- RoundTripDouble: a negative subnormal under the descriptor XN. -/
theorem witness_RoundTrip :
    let s := unitWith ExampleSet.xn 0x8000000000000001
    s.descriptor? 0 = some ExampleSet.xn ∧ ExampleSet.xn.width = .w64 ∧ ExampleSet.xn.tp = false ∧
      isFinite64 s.opa = true := by decide

/-- DecodeIsIdempotent. -/
theorem witness_Idempotent :
    let s := unitWith ExampleSet.t16 0x3FB999999999999A
    s.descriptor? 0 = some ExampleSet.t16 ∧ ExampleSet.t16.valid = true ∧ isNaN64 s.opa = false ∧
      ExampleSet.d16.valid = true ∧ isNaN64 0x4202A05F20000000 = false := by decide

/-- TruncationMonotonicity: the largest operand below the overflow of binary32 (vector V58), the three descriptors in
three slots. -/
theorem witness_Monotonicity :
    let s := { State.resetOf 3 with
      table := [some ExampleSet.t16, some ExampleSet.t19, some ExampleSet.d32], opa := 0x47EFFFFFEFFFFFFF }
    s.descriptor? 0 = some ExampleSet.t16 ∧ s.descriptor? 1 = some ExampleSet.t19 ∧
      s.descriptor? 2 = some ExampleSet.d32 ∧ isFinite64 s.opa = true ∧ (pack .w32 s.opa).ovf = false ∧
      isFinite64 0x3FB99999A0000000 = true ∧ (pack .w32 0x3FB99999A0000000).ovf = false := by
  decide +kernel

/-- WorkedDecodes. -/
theorem witness_WorkedDecodes :
    (unitWith ExampleSet.d16 0x4202A05F20000000).descriptor? 0 = some ExampleSet.d16 ∧
    (unitWith ExampleSet.d64 0x3FB999999999999A).descriptor? 0 = some ExampleSet.d64 ∧
    (unitWith ExampleSet.t16 0x3FB999999999999A).descriptor? 0 = some ExampleSet.t16 := by decide

/-! ### Witnesses about values -/

/-- 1.0 has the value 1, at 64 bits and at 16. -/
theorem val64_one : val64 0x3FF0000000000000 = some (.finite 1) := by
  have he : bitField (BitVec.toNat (0x3FF0000000000000 : Word)) 52 11 = 1023 := by decide
  have hm : bitField (BitVec.toNat (0x3FF0000000000000 : Word)) 0 52 = 0 := by decide
  have hs : bitField (BitVec.toNat (0x3FF0000000000000 : Word)) 63 1 = 0 := by decide
  simp only [val64, val, he, hm, hs, signed, ones]
  norm_num

theorem valNative_one : valNative .w16 0x3C00 = some (.finite 1) := by
  have he : bitField 0x3C00 10 5 = 15 := by decide
  have hm : bitField 0x3C00 0 10 = 0 := by decide
  have hs : bitField 0x3C00 15 1 = 0 := by decide
  simp only [valNative, val, NativeWidth.ewn, NativeWidth.mwn, NativeWidth.biasn, he, hm, hs, signed, ones]
  norm_num

/-- PackRoundsToNearestEven, ReconstructionIsExact, StoredMagnitudeNeverGrows, HalfOverflow and SingleOverflow (whose
other clauses are equivalences over all values): 1.0, its packed pattern and a neighbour's place. -/
theorem witness_PackNearest :
    val64 0x3FF0000000000000 = some (.finite 1) ∧ (pack .w16 0x3FF0000000000000).ovf = false ∧
      (pack .w16 0x3FF0000000000000).pattern = 0x3C00 ∧ 0x3C00 < 2 ^ NativeWidth.bits .w16 ∧
      valNative .w16 0x3C00 = some (.finite 1) ∧ isNaN64 0x3FF0000000000000 = false ∧ ExampleSet.d16.valid = true :=
  ⟨val64_one, by decide +kernel, by decide +kernel, by decide, valNative_one, by decide, by decide⟩

/-- 65520, the overflow threshold of R72, and the double just below it. -/
theorem val64_threshold : val64 0x40EFFE0000000000 = some (.finite 65520) := by
  have he : bitField (BitVec.toNat (0x40EFFE0000000000 : Word)) 52 11 = 1038 := by decide
  have hm : bitField (BitVec.toNat (0x40EFFE0000000000 : Word)) 0 52 = 0xFFE0000000000 := by decide
  have hs : bitField (BitVec.toNat (0x40EFFE0000000000 : Word)) 63 1 = 0 := by decide
  simp only [val64, val, he, hm, hs, signed, ones]
  norm_num

/-- HalfOverflow, second clause at its boundary; third clause by 65512, between 65504 and 65520. -/
theorem witness_HalfOverflow :
    val64 0x40EFFE0000000000 = some (.finite 65520) ∧ (65520 : ℚ) ≤ |65520| ∧
      val64 0x40EFFD0000000000 = some (.finite 65512) ∧ (65504 : ℚ) < |65512| ∧ |(65512 : ℚ)| < 65520 := by
  refine ⟨val64_threshold, by norm_num, ?_, by norm_num, by norm_num⟩
  have he : bitField (BitVec.toNat (0x40EFFD0000000000 : Word)) 52 11 = 1038 := by decide
  have hm : bitField (BitVec.toNat (0x40EFFD0000000000 : Word)) 0 52 = 0xFFD0000000000 := by decide
  have hs : bitField (BitVec.toNat (0x40EFFD0000000000 : Word)) 63 1 = 0 := by decide
  simp only [val64, val, he, hm, hs, signed, ones]
  norm_num

/-- SingleOverflow at its threshold (vector V59): (2 - 2^-24) × 2^127 overflows. -/
theorem witness_SingleOverflow :
    val64 0x47EFFFFFF0000000 = some (.finite ((2 - 2 ^ (-24 : Int)) * 2 ^ (127 : Int))) ∧
      (pack .w32 0x47EFFFFFF0000000).ovf = true := by
  refine ⟨?_, by decide +kernel⟩
  have he : bitField (BitVec.toNat (0x47EFFFFFF0000000 : Word)) 52 11 = 1150 := by decide
  have hm : bitField (BitVec.toNat (0x47EFFFFFF0000000 : Word)) 0 52 = 0xFFFFFF0000000 := by decide
  have hs : bitField (BitVec.toNat (0x47EFFFFFF0000000 : Word)) 63 1 = 0 := by decide
  simp only [val64, val, he, hm, hs, signed, ones]
  norm_num

/-- ErrorIsExact and ErrorIsExactForEveryDescriptor: 1.0 under `D16`, in slot 0. -/
theorem witness_ErrorIsExact :
    let s := unitWith ExampleSet.d16 0x3FF0000000000000
    s.descriptor? 0 = some ExampleSet.d16 ∧ ExampleSet.d16.valid = true ∧ ExampleSet.d16.keepsNativeExp = true ∧
      isNaN64 s.opa = false ∧ val64 s.opa = some (.finite 1) ∧
      ∃ t, exec (.decode 0) s = .next t ∧ val64 t.rsv = some (.finite 1) := by
  refine ⟨by decide, by decide, by decide, by decide, val64_one,
    after (exec (.decode 0) (unitWith ExampleSet.d16 0x3FF0000000000000)), rfl, ?_⟩
  rw [show (after (exec (.decode 0) (unitWith ExampleSet.d16 0x3FF0000000000000))).rsv = 0x3FF0000000000000 by
    decide +kernel]
  exact val64_one

/-- ErrorIsExact, second clause: 1.0 under XM2 is stored as +0 (vector V105), and the difference is 1. -/
theorem witness_ErrorIsExact_representable :
    let s := unitWith ExampleSet.xm2 0x3FF0000000000000
    s.descriptor? 0 = some ExampleSet.xm2 ∧ ExampleSet.xm2.valid = true ∧ ExampleSet.xm2.keepsNativeExp = false ∧
      val64 s.opa = some (.finite 1) ∧ storedValue ExampleSet.xm2 s.opa = 0 ∧ val64 0 = some (.finite 0) ∧
      val64 0x3FF0000000000000 = some (.finite |1 - 0|) := by
  refine ⟨by decide, by decide, by decide, val64_one, by decide +kernel, ?_, by simpa using val64_one⟩
  have he : bitField (BitVec.toNat (0 : Word)) 52 11 = 0 := by decide
  have hm : bitField (BitVec.toNat (0 : Word)) 0 52 = 0 := by decide
  have hs : bitField (BitVec.toNat (0 : Word)) 63 1 = 0 := by decide
  simp only [val64, val, he, hm, hs, signed]
  norm_num

/-! ### Witnesses of the invariant -/

/-- StepKeepsInvariant: the reset state has the invariant and a step of it answers. -/
theorem witness_Invariant : (State.resetOf 8).Inv where
  ndesc_allowed := by decide
  slots_valid := by
    intro k d h
    simp only [State.descriptor?, State.resetOf, List.getElem?_replicate] at h
    split at h <;> cases h
  dstg_hardwired := by decide
  cew_hardwired := by decide
  cbias_hardwired := by decide
  status_value := by decide
  clear_without_rv := fun _ => ⟨rfl, rfl, rfl, rfl, rfl, rfl, rfl, rfl⟩
  rsign_bit := by decide
  rexp_fits := by decide
  rman_fits := by decide
  rfmt_reserved := by decide
  rcls_value := by decide
  rtexp_placeholder := fun _ => rfl
  rsv_not_nan := by decide
  rerr_nonneg := by decide
  rerr_not_nan := by decide

theorem witness_Invariant_step : step (State.resetOf 8) = .next (State.resetOf 8) := rfl

/-- ResetHasInvariant: the ends of the admitted range. -/
theorem witness_NdescAllowed : Config.ndescAllowed 1 ∧ Config.ndescAllowed 16 := by decide

end Sys2Proof.Tests
end

/-! ## The architectural state (10_state.md): the reset state, `DVALID`, and the invariant -/

namespace Sys2Proof.Machine

/-! ### `DVALID` (R28) -/

/-- Bit `k` of a table's valid bits says whether entry `k` holds a descriptor; there is no such entry past the end. -/
theorem testBit_validBits (l : List (Option Descriptor)) (k : Nat) :
    (validBits l).testBit k = (l[k]?).join.isSome := by
  induction l generalizing k with
  | nil => simp [validBits]
  | cons d rest ih =>
    have hbit := bit_le_one d.isSome
    cases k with
    | zero =>
      have hmod : (bit d.isSome + 2 * validBits rest) % 2 = bit d.isSome := by omega
      simp [validBits, Nat.testBit_zero, hmod]
    | succ k =>
      have hdiv : (bit d.isSome + 2 * validBits rest) / 2 = validBits rest := by omega
      simp [validBits, Nat.testBit_succ, hdiv, ih]

/-- A bit of `DVALID` is the valid bit of its slot; an absent slot is not valid. -/
theorem State.getLsbD_dvalid (s : State) {k : Nat} (hk : k < 64) : s.dvalid.getLsbD k = s.slotValid k := by
  rw [State.dvalid, BitVec.getLsbD_ofNat, testBit_validBits, State.slotValid, State.descriptor?, decide_eq_true hk,
    Bool.true_and]

theorem State.slotValid_eq_false_of_le {s : State} {k : Nat} (h : s.ndesc ≤ k) : s.slotValid k = false := by
  cases hd : s.descriptor? k with
  | none => rw [State.slotValid_eq_isSome, hd]; rfl
  | some d => exact absurd (State.lt_ndesc_of_descriptor? hd) (Nat.not_lt_of_le h)

/-- Settles O13: `DVALID` is the valid bits of the table, bit by bit, and a slot past the table has none. -/
theorem dvalidViewsTable : Obligations.DvalidViewsTable := by
  unfold Obligations.DvalidViewsTable
  intro s k _ hk
  rw [State.getLsbD_dvalid s hk]
  by_cases h : k < s.ndesc
  · simp [h]
  · simp [h, State.slotValid_eq_false_of_le (Nat.le_of_not_lt h)]

/-! ### The reset state (R29) -/

@[simp] theorem State.descriptor?_resetOf (ndesc k : Nat) : (State.resetOf ndesc).descriptor? k = none :=
  State.descriptor?_replicate rfl k

@[simp] theorem validBits_replicate_none (n : Nat) : validBits (List.replicate n none) = 0 := by
  induction n with
  | zero => rfl
  | succ n ih => simp [List.replicate_succ, validBits, bit, ih]

theorem State.dvalid_resetOf (ndesc : Nat) : (State.resetOf ndesc).dvalid = 0 := by
  simp [State.dvalid, State.resetOf]

theorem State.stored_resetOf (ndesc : Nat) (r : Reg) : (State.resetOf ndesc).stored r = 0 := by
  cases r with
  | dvalid => exact State.dvalid_resetOf ndesc
  | _ => rfl

/-- Settles O17: every register of the reset state holds 0, and every slot is empty. -/
theorem resetValuesAreZero : Obligations.ResetValuesAreZero := by
  unfold Obligations.ResetValuesAreZero
  intro ndesc
  refine ⟨fun n r _ => ?_, State.descriptor?_resetOf ndesc⟩
  rw [State.readReg, State.stored_resetOf]
  exact BitVec.zero_and

/-! ### The invariant in three parts

A transaction touches the table, the operand registers, or `STATUS` with the result registers; each part of the
invariant depends on its own fields alone. -/

/-- The clauses of the invariant about the descriptor table (00_scope.md R6, 10_state.md R16). -/
structure State.TableInv (s : State) : Prop where
  ndesc_allowed : Config.ndescAllowed s.ndesc
  slots_valid : ∀ k d, s.descriptor? k = some d → d.valid = true

/-- The clauses about the operand registers (R14, R15). -/
structure State.OperandsInv (s : State) : Prop where
  dstg_hardwired : s.dstg &&& 0x0000000080008080 = 0
  cew_hardwired : s.cew.toNat < 2 ^ 7
  cbias_hardwired : s.cbias.toNat < 2 ^ 32

/-- The clauses about `STATUS` and the result registers (R18 to R27). -/
structure State.ResultsInv (s : State) : Prop where
  status_value : s.status ∈ statusValues
  clear_without_rv : statusRV s.status = false → s.resultsClear
  rsign_bit : s.rsign.toNat < 2
  rexp_fits : s.rexp.toNat < 2 ^ (rfmtEW s.rfmt).toNat
  rman_fits : s.rman.toNat < 2 ^ (rfmtKM s.rfmt).toNat
  rfmt_reserved : s.rfmt &&& Reg.usedBits .rfmt = s.rfmt
  rcls_value : s.rcls ∈ rclsValues
  rtexp_placeholder : rclsTEXPV s.rcls = false → s.rtexp = 0
  rsv_not_nan : isNaN64 s.rsv = false
  rerr_nonneg : sign64 s.rerr = false
  rerr_not_nan : isNaN64 s.rerr = false

theorem State.inv_iff (s : State) : s.Inv ↔ s.TableInv ∧ s.OperandsInv ∧ s.ResultsInv :=
  ⟨fun h => ⟨{ h with }, { h with }, { h with }⟩, fun ⟨ht, ho, hr⟩ => { ht, ho, hr with }⟩

theorem State.TableInv.congr {s t : State} (h : s.TableInv) (htable : t.table = s.table) : t.TableInv where
  ndesc_allowed := State.ndesc_congr htable ▸ h.ndesc_allowed
  slots_valid k d hd := h.slots_valid k d (State.descriptor?_congr htable k ▸ hd)

theorem State.OperandsInv.congr {s t : State} (h : s.OperandsInv) (hdstg : t.dstg = s.dstg) (hcew : t.cew = s.cew)
    (hcbias : t.cbias = s.cbias) : t.OperandsInv where
  dstg_hardwired := hdstg ▸ h.dstg_hardwired
  cew_hardwired := hcew ▸ h.cew_hardwired
  cbias_hardwired := hcbias ▸ h.cbias_hardwired

/-- Result registers that are all 0 satisfy their clauses, whatever the `STATUS` value beside them. -/
theorem State.resultsInv_of_clear {s : State} (hstatus : s.status ∈ statusValues) (hclear : s.resultsClear) :
    s.ResultsInv := by
  obtain ⟨hrsign, hrexp, hrman, hrfmt, hrcls, hrtexp, hrsv, hrerr⟩ := id hclear
  constructor
  case status_value => exact hstatus
  case clear_without_rv => exact fun _ => hclear
  case rtexp_placeholder => exact fun _ => hrtexp
  case rsign_bit => rw [hrsign]; decide
  case rexp_fits => rw [hrexp, hrfmt]; decide
  case rman_fits => rw [hrman, hrfmt]; decide
  case rfmt_reserved => rw [hrfmt]; decide
  case rcls_value => rw [hrcls]; decide
  case rsv_not_nan => rw [hrsv]; decide
  case rerr_nonneg => rw [hrerr]; decide
  case rerr_not_nan => rw [hrerr]; decide

theorem State.resultsClear_clearResults (s : State) : s.clearResults.resultsClear :=
  ⟨rfl, rfl, rfl, rfl, rfl, rfl, rfl, rfl⟩

/-! ### The invariant at reset -/

theorem State.tableInv_of_replicate {s : State} {ndesc : Nat} (h : s.table = List.replicate ndesc none)
    (hn : Config.ndescAllowed ndesc) : s.TableInv where
  ndesc_allowed := by rwa [State.ndesc, h, List.length_replicate]
  slots_valid k d hd := by rw [State.descriptor?_replicate h] at hd; cases hd

/-- A state with empty slots and with 0 in every register but `OPA`, `CEXP` and `CMAN`, on which the invariant has no
clause, has the invariant. -/
theorem State.inv_of_zero {s : State} {ndesc : Nat} (hn : Config.ndescAllowed ndesc)
    (htable : s.table = List.replicate ndesc none) (hdstg : s.dstg = 0) (hcew : s.cew = 0) (hcbias : s.cbias = 0)
    (hstatus : s.status = 0) (hclear : s.resultsClear) : s.Inv := by
  refine s.inv_iff.2 ⟨State.tableInv_of_replicate htable hn, ⟨?_, ?_, ?_⟩, State.resultsInv_of_clear ?_ hclear⟩
  · rw [hdstg]; decide
  · rw [hcew]; decide
  · rw [hcbias]; decide
  · rw [hstatus]; decide

theorem State.resetOf_inv {ndesc : Nat} (hn : Config.ndescAllowed ndesc) : (State.resetOf ndesc).Inv :=
  State.inv_of_zero hn rfl rfl rfl rfl rfl ⟨rfl, rfl, rfl, rfl, rfl, rfl, rfl, rfl⟩

/-- Settles O56: the reset state has the invariant for every admitted `NDESC`, the default of 8 among them. -/
theorem resetHasInvariant : Obligations.ResetHasInvariant := by
  unfold Obligations.ResetHasInvariant
  exact ⟨fun ndesc hn => ⟨State.resetOf_inv hn, State.ndesc_resetOf ndesc⟩, State.resetOf_inv (by decide)⟩

theorem State.resetEvent_keeps_inv {s : State} (h : s.Inv) : s.resetEvent.Inv :=
  State.inv_of_zero h.ndesc_allowed rfl rfl rfl rfl rfl ⟨rfl, rfl, rfl, rfl, rfl, rfl, rfl, rfl⟩

/-! ### The invariant through reads and operand writes -/

/-- The host's side of the run is no part of the invariant. -/
theorem State.inv_withHost {s : State} (h : s.Inv) (script : List Txn) (observed : List Word) :
    State.Inv { s with script := script, observed := observed } := { h with }

/-- A masked word is below every bound of the mask. -/
theorem toNat_and_lt {m : Word} {b : Nat} (hm : m.toNat < b) (v : Word) : (v &&& m).toNat < b := by
  rw [BitVec.toNat_and]
  exact Nat.and_le_right.trans_lt hm

/-- An operand write leaves hardwired bits 0 in the register it names, and the other registers alone (R33). -/
theorem State.writeReg_keeps_operandsInv {s : State} (h : s.OperandsInv) (r : Reg) (v : Word) :
    (s.writeReg r v).OperandsInv := by
  cases r with
  | dstg =>
    have hmask : (v &&& Reg.usedBits .dstg) &&& 0x0000000080008080 = 0 := by
      rw [BitVec.and_assoc, show Reg.usedBits .dstg &&& 0x0000000080008080 = 0 by decide]
      exact BitVec.and_zero
    exact { h with dstg_hardwired := hmask }
  | cew => exact { h with cew_hardwired := toNat_and_lt (by decide) v }
  | cbias => exact { h with cbias_hardwired := toNat_and_lt (by decide) v }
  | _ => exact h.congr rfl rfl rfl

theorem State.writeReg_keeps_resultsInv {s : State} (h : s.ResultsInv) (r : Reg) (v : Word) :
    (s.writeReg r v).ResultsInv := by
  cases r <;> exact { h with }

theorem State.writeReg_keeps_inv {s : State} (h : s.Inv) (r : Reg) (v : Word) : (s.writeReg r v).Inv := by
  obtain ⟨htable, hoperands, hresults⟩ := s.inv_iff.1 h
  exact (State.inv_iff _).2 ⟨htable.congr (s.writeReg_table r v), State.writeReg_keeps_operandsInv hoperands r v,
    State.writeReg_keeps_resultsInv hresults r v⟩

/-! ### The invariant through the commands -/

/-- An error code the unit raises gives one of the `STATUS` values (R127). -/
theorem errorStatus_mem {e : ErrCode} (he : e ≠ .invalidInput) : statusWord false e.code false ∈ statusValues := by
  cases e with
  | invalidInput => exact absurd rfl he
  | _ => decide

theorem loadStatus_mem : statusWord false 0 false ∈ statusValues := by decide

theorem resultStatus_mem (ovf : Bool) : statusWord true 0 ovf ∈ statusValues := by cases ovf <;> decide

theorem statusRV_resultStatus (ovf : Bool) : statusRV (statusWord true 0 ovf) = true := by cases ovf <;> decide

theorem State.errorCompletion_keeps_inv {s : State} (h : s.Inv) {e : ErrCode} (he : e ≠ .invalidInput) :
    (s.errorCompletion e).Inv := by
  obtain ⟨htable, hoperands, -⟩ := s.inv_iff.1 h
  exact (State.inv_iff _).2 ⟨htable.congr rfl, hoperands.congr rfl rfl rfl,
    State.resultsInv_of_clear (errorStatus_mem he) s.resultsClear_clearResults⟩

/-- A staged descriptor that passes `validate` is a valid one (R56, R57). -/
theorem stagedDescriptor_valid {d : Word} {w : NativeWidth} (h : validate d = .ok w) :
    (stagedDescriptor w d).valid = true := by
  obtain ⟨hsum, hrange, hw⟩ := validate_ok h
  have hbits := bits_of_nativeWidth? hw
  simp only [widthsConsistent, decide_eq_true_eq] at hsum
  simp only [Descriptor.valid, stagedDescriptor, hbits, Bool.and_eq_true, decide_eq_true_eq]
  exact ⟨hsum, hrange⟩

theorem State.TableInv.installSlot {s : State} (h : s.TableInv) {k : Nat} (hk : k < s.ndesc) {d : Descriptor}
    (hd : d.valid = true) : (s.installSlot k d).TableInv where
  ndesc_allowed := by rw [State.ndesc_installSlot]; exact h.ndesc_allowed
  slots_valid j d' hj := by
    rw [State.descriptor?_installSlot s hk] at hj
    split at hj
    · cases hj; exact hd
    · exact h.slots_valid j d' hj

theorem execDescload_keeps_inv {s t : State} {slot : Nat} (h : s.Inv) (ht : execDescload slot s = .next t) : t.Inv := by
  obtain ⟨e, he, rfl⟩ | ⟨w, hslot, -, hvalid, rfl⟩ := execDescload_cases ht
  · exact State.errorCompletion_keeps_inv h he
  · obtain ⟨htable, hoperands, -⟩ := s.inv_iff.1 h
    have hinstalled := htable.installSlot hslot (stagedDescriptor_valid hvalid)
    exact (State.inv_iff _).2 ⟨hinstalled.congr rfl, hoperands.congr rfl rfl rfl,
      State.resultsInv_of_clear loadStatus_mem s.resultsClear_clearResults⟩

theorem execClassify_keeps_inv {s t : State} (h : s.Inv) (ht : execClassify s = .next t) : t.Inv := by
  obtain ⟨e, he, rfl⟩ | ⟨-, -, rfl⟩ := execClassify_cases ht
  · exact State.errorCompletion_keeps_inv h he
  · obtain ⟨htable, hoperands, -⟩ := s.inv_iff.1 h
    obtain ⟨hrcls, hrtexp⟩ :=
      rcls_of_classify s.cexp.toNat s.cman.toNat (cewWidth s.cew) (cbiasValue s.cbias)
    have hcleared : (s.clearResults.setStatus (statusWord true 0 false)).ResultsInv :=
      State.resultsInv_of_clear (resultStatus_mem false) s.resultsClear_clearResults
    exact (State.inv_iff _).2 ⟨htable.congr rfl, hoperands.congr rfl rfl rfl,
      { hcleared with
        clear_without_rv := fun hrv => absurd hrv (by simp [statusRV_resultStatus])
        rcls_value := hrcls
        rtexp_placeholder := hrtexp }⟩

/-! ### `RFMT` of fields that fit (R23) -/

/-- A mask of two parts acts on the parts of a number by themselves. -/
theorem and_of_parts {i a b m n : Nat} (hb : b < 2 ^ i) (hn : n < 2 ^ i) :
    (2 ^ i * a + b) &&& (2 ^ i * m + n) = 2 ^ i * (a &&& m) + (b &&& n) := by
  have hbn : b &&& n < 2 ^ i := Nat.and_lt_two_pow b hn
  apply Nat.eq_of_testBit_eq
  intro j
  rw [Nat.testBit_and, Nat.testBit_two_pow_mul_add _ hb, Nat.testBit_two_pow_mul_add _ hn,
    Nat.testBit_two_pow_mul_add _ hbn]
  split <;> simp only [Nat.testBit_and]

section
variable {ew km l w : Nat} (hew : ew < 128) (hkm : km < 128) (hl : l < 128) (hw : w < 128)
include hew hkm hl hw

theorem toNat_rfmtWord :
    (rfmtWord ew km l w).toNat = 2 ^ 8 * (2 ^ 8 * (2 ^ 8 * w + l) + km) + ew := by
  simp only [rfmtWord, BitVec.toNat_ofNat, Nat.shiftLeft_eq]
  omega

theorem toNat_rfmtEW_rfmtWord : (rfmtEW (rfmtWord ew km l w)).toNat = ew := by
  rw [rfmtEW, BitVec.extractLsb'_toNat, toNat_rfmtWord hew hkm hl hw, Nat.shiftRight_eq_div_pow]
  omega

theorem toNat_rfmtKM_rfmtWord : (rfmtKM (rfmtWord ew km l w)).toNat = km := by
  rw [rfmtKM, BitVec.extractLsb'_toNat, toNat_rfmtWord hew hkm hl hw, Nat.shiftRight_eq_div_pow]
  omega

/-- `RFMT` of fields that fit has no reserved bit: byte by byte, a field below 128 keeps its value under 0x7F. -/
theorem rfmtWord_and_usedBits : rfmtWord ew km l w &&& Reg.usedBits .rfmt = rfmtWord ew km l w := by
  have hfield : ∀ {x : Nat}, x < 128 → x &&& 127 = x := fun hx => by
    rw [show 127 = 2 ^ 7 - 1 by rfl, Nat.and_two_pow_sub_one_eq_mod, Nat.mod_eq_of_lt hx]
  have hmask : (Reg.usedBits .rfmt).toNat = 2 ^ 8 * (2 ^ 8 * (2 ^ 8 * 127 + 127) + 127) + 127 := by decide
  apply BitVec.eq_of_toNat_eq
  rw [BitVec.toNat_and, hmask, toNat_rfmtWord hew hkm hl hw, and_of_parts (by omega) (by omega),
    and_of_parts (by omega) (by omega), and_of_parts (by omega) (by omega), hfield hew, hfield hkm, hfield hl,
    hfield hw]

end

/-! ### The results of `DECODE` -/

theorem NativeWidth.bits_le (w : NativeWidth) : w.bits ≤ 64 := by cases w <;> decide

theorem Descriptor.seqLen_lt (d : Descriptor) : d.seqLen < 128 := by
  have hbits := d.width.bits_le
  have ht := d.t.isLt
  unfold Descriptor.seqLen
  split <;> omega

theorem Descriptor.keptMan_lt (d : Descriptor) : d.keptMan < 128 := by
  have := d.seqLen_lt
  unfold Descriptor.keptMan
  omega

theorem toNat_ofNat_lt {n b : Nat} (h : n < b) : (BitVec.ofNat 64 n).toNat < b :=
  (BitVec.toNat_ofNat n 64 ▸ Nat.mod_le _ _).trans_lt h

/-- What the pipeline writes satisfies the clauses on the result registers, for every descriptor and every operand that
is no NaN. -/
theorem State.writeDecoded_resultsInv (s : State) (d : Descriptor) {v : Word} (hv : isNaN64 v = false) :
    ((s.writeDecoded (decodeValue d v)).setStatus (statusWord true 0 (decodeValue d v).ovf)).ResultsInv := by
  have hew : d.ew.toNat < 128 := d.ew.isLt
  have hw : d.width.bits < 128 := d.width.bits_le.trans_lt (by decide)
  obtain ⟨hrcls, hrtexp⟩ :=
    rcls_of_classify (seqExp d (extracted d v)) (seqMan d (extracted d v)) d.ew.toNat (signed32 d.bias)
  have herr := absError_le v (storedValue d v)
  constructor
  case status_value => exact resultStatus_mem _
  case clear_without_rv => exact fun hrv => absurd hrv (by simp [statusRV_resultStatus])
  case rsign_bit => exact toNat_ofNat_lt (seqSign_lt _ _)
  case rexp_fits =>
    have hfield := toNat_rfmtEW_rfmtWord hew d.keptMan_lt d.seqLen_lt hw
    have hfits := toNat_ofNat_lt (seqExp_lt d (extracted d v))
    rw [← hfield] at hfits
    exact hfits
  case rman_fits =>
    have hfield := toNat_rfmtKM_rfmtWord hew d.keptMan_lt d.seqLen_lt hw
    have hfits := toNat_ofNat_lt (seqMan_lt d (extracted d v))
    rw [← hfield] at hfits
    exact hfits
  case rfmt_reserved => exact rfmtWord_and_usedBits hew d.keptMan_lt d.seqLen_lt hw
  case rcls_value => exact hrcls
  case rtexp_placeholder => exact hrtexp
  case rsv_not_nan => exact storedValue_not_nan d hv
  case rerr_nonneg =>
    show sign64 (absError v (storedValue d v)) = false
    rw [sign64_eq, decide_eq_false_iff_not]
    omega
  case rerr_not_nan =>
    show isNaN64 (absError v (storedValue d v)) = false
    rw [isNaN64_eq_false_iff]
    omega

theorem execDecode_keeps_inv {s t : State} {slot : Nat} (h : s.Inv) (ht : execDecode slot s = .next t) : t.Inv := by
  obtain ⟨e, he, rfl⟩ | ⟨d, -, hnan, rfl⟩ := execDecode_cases ht
  · exact State.errorCompletion_keeps_inv h he
  · obtain ⟨htable, hoperands, -⟩ := s.inv_iff.1 h
    exact (State.inv_iff _).2 ⟨htable.congr rfl, hoperands.congr rfl rfl rfl,
      s.clearResults.writeDecoded_resultsInv d hnan⟩

/-! ### The invariant through a step -/

theorem exec_keeps_inv {s t : State} {i : Instr} (h : s.Inv) (ht : exec i s = .next t) : t.Inv := by
  cases i with
  | descload slot => exact execDescload_keeps_inv h ht
  | decode slot => exact execDecode_keeps_inv h ht
  | classify => exact execClassify_keeps_inv h ht

theorem transact_keeps_inv {s t : State} {x : Txn} (h : s.Inv) (ht : transact x s = .next t) : t.Inv := by
  obtain ⟨n, r, -, -, rfl⟩ | ⟨n, v, r, -, -, -, rfl⟩ | ⟨v, i, -, -, hexec⟩ | ⟨v, e, -, -, rfl⟩ | ⟨-, rfl⟩ :=
    transact_cases ht
  · exact State.inv_withHost h _ _
  · exact State.writeReg_keeps_inv h r v
  · exact exec_keeps_inv h hexec
  · exact State.errorCompletion_keeps_inv h (by decide)
  · exact State.resetEvent_keeps_inv h

/-- Settles O55: a step idles or performs one transaction, and every transaction keeps the invariant. -/
theorem stepKeepsInvariant : Obligations.StepKeepsInvariant := by
  unfold Obligations.StepKeepsInvariant
  intro s t h hstep
  obtain ⟨-, rfl⟩ | ⟨x, rest, -, ht⟩ := step_cases hstep
  · exact h
  · exact transact_keeps_inv (State.inv_withHost h rest s.observed) ht

end Sys2Proof.Machine

/-! ## The host port (20_memory.md): register reads and writes, and the accesses without a meaning -/

namespace Sys2Proof.Machine

@[simp] theorem transact_read (n : Fin 32) (s : State) : transact (.read n) s = regRead n s := rfl

@[simp] theorem transact_write (n : Fin 32) (v : Word) (s : State) : transact (.write n v) s = regWrite n v s := rfl

/-! ### Registers whose bits are all used -/

/-- In a register without hardwired or reserved bits the mask changes nothing (R12). -/
theorem and_usedBits_of_full {r : Reg} (h : r.usedBits = BitVec.allOnes 64) (v : Word) : v &&& r.usedBits = v := by
  rw [h, BitVec.and_allOnes]

theorem State.readReg_of_full (s : State) {r : Reg} (h : r.usedBits = BitVec.allOnes 64) : s.readReg r = s.stored r :=
  and_usedBits_of_full h (s.stored r)

/-! ### Reads (R32) -/

/-- Where every bit of the register is used, the host gets what the register holds. -/
theorem regRead_full {s : State} {n : Fin 32} {r : Reg} (h : Reg.ofNum? n = some r) (ha : r.access ≠ .writeOnly)
    (hfull : r.usedBits = BitVec.allOnes 64) :
    regRead n s = .next { s with observed := s.observed ++ [s.stored r] } := by
  rw [regRead_readable h ha, s.readReg_of_full hfull]

/-- Settles O8, register by register: nine have all their bits used, the other seven are read under their mask. -/
theorem regReadReturnsRegister : Obligations.RegReadReturnsRegister := by
  unfold Obligations.RegReadReturnsRegister
  intro s n v h
  obtain ⟨rfl, rfl⟩ | ⟨rfl, rfl⟩ | ⟨rfl, rfl⟩ | ⟨rfl, rfl⟩ | ⟨rfl, rfl⟩ | ⟨rfl, rfl⟩ | ⟨rfl, rfl⟩ | ⟨rfl, rfl⟩ |
    ⟨rfl, rfl⟩ | ⟨rfl, rfl⟩ | ⟨rfl, rfl⟩ | ⟨rfl, rfl⟩ | ⟨rfl, rfl⟩ | ⟨rfl, rfl⟩ | ⟨rfl, rfl⟩ | ⟨rfl, rfl⟩ := h
  · exact regRead_full (Reg.ofNum?_num .opa) (by decide) rfl
  · exact regRead_readable (Reg.ofNum?_num .dstg) (by decide)
  · exact regRead_full (Reg.ofNum?_num .cexp) (by decide) rfl
  · exact regRead_full (Reg.ofNum?_num .cman) (by decide) rfl
  · exact regRead_readable (Reg.ofNum?_num .cew) (by decide)
  · exact regRead_readable (Reg.ofNum?_num .cbias) (by decide)
  · exact regRead_readable (Reg.ofNum?_num .status) (by decide)
  · exact regRead_full (Reg.ofNum?_num .dvalid) (by decide) rfl
  · exact regRead_readable (Reg.ofNum?_num .rsign) (by decide)
  · exact regRead_full (Reg.ofNum?_num .rexp) (by decide) rfl
  · exact regRead_full (Reg.ofNum?_num .rman) (by decide) rfl
  · exact regRead_readable (Reg.ofNum?_num .rfmt) (by decide)
  · exact regRead_readable (Reg.ofNum?_num .rcls) (by decide)
  · exact regRead_full (Reg.ofNum?_num .rtexp) (by decide) rfl
  · exact regRead_full (Reg.ofNum?_num .rsv) (by decide) rfl
  · exact regRead_full (Reg.ofNum?_num .rerr) (by decide) rfl

/-! ### Writes (R33) -/

theorem runCommandWord_ok {v : Word} {i : Instr} (h : decodeWord v = .ok i) (s : State) :
    runCommandWord v s = exec i s := by
  simp only [runCommandWord, h]

theorem runCommandWord_error {v : Word} {e : DecodeError} (h : decodeWord v = .error e) (s : State) :
    runCommandWord v s = .next (s.errorCompletion .illegal) := by
  simp only [runCommandWord, h]

/-- Settles O9: the operand registers take the value under their mask, which is no mask for three of them, and `CMD`
hands the word to the decoder. -/
theorem regWriteReplacesWritableBits : Obligations.RegWriteReplacesWritableBits := by
  unfold Obligations.RegWriteReplacesWritableBits
  intro s v
  refine ⟨?opa, ?dstg, ?cexp, ?cman, ?cew, ?cbias, fun i hi => ?command, fun e he => ?illegal⟩
  case opa => rw [transact_write, regWrite_operand (r := .opa) rfl rfl, State.writeReg, and_usedBits_of_full rfl]
  case dstg => exact regWrite_operand (Reg.ofNum?_num .dstg) rfl v
  case cexp => rw [transact_write, regWrite_operand (r := .cexp) rfl rfl, State.writeReg, and_usedBits_of_full rfl]
  case cman => rw [transact_write, regWrite_operand (r := .cman) rfl rfl, State.writeReg, and_usedBits_of_full rfl]
  case cew => exact regWrite_operand (Reg.ofNum?_num .cew) rfl v
  case cbias => exact regWrite_operand (Reg.ofNum?_num .cbias) rfl v
  case command => rw [transact_write, regWrite_cmd, runCommandWord_ok hi]
  case illegal => rw [transact_write, regWrite_cmd, runCommandWord_error he]

/-! ### The accesses without a meaning (R35) -/

/-- The unimplemented register numbers (R12). -/
theorem Reg.ofNum?_eq_none_iff {n : Fin 32} :
    Reg.ofNum? n = none ↔ n = 6 ∨ n = 7 ∨ (11 ≤ n.val ∧ n.val ≤ 15) ∨ 24 ≤ n.val := by
  revert n; decide

/-- The numbers of the read-only registers (R12). -/
theorem Reg.readOnly_iff {n : Fin 32} :
    (∃ r, Reg.ofNum? n = some r ∧ r.access = .readOnly) ↔ n = 9 ∨ n = 10 ∨ (16 ≤ n.val ∧ n.val ≤ 23) := by
  rw [← Option.map_eq_some_iff]
  revert n; decide

section
variable {s : State} {n : Fin 32}

/-- R35 (a), reads. -/
theorem regRead_unimplemented (h : Reg.ofNum? n = none) :
    regRead n s = .refused (.unimplementedRegister n) := by
  simp only [regRead, h]

/-- R35 (a), writes. -/
theorem regWrite_unimplemented (h : Reg.ofNum? n = none) (v : Word) :
    regWrite n v s = .refused (.unimplementedRegister n) := by
  simp only [regWrite, h]

/-- R35 (b). -/
theorem regWrite_readOnly {r : Reg} (h : Reg.ofNum? n = some r) (ha : r.access = .readOnly) (v : Word) :
    regWrite n v s = .refused (.writeOfReadOnly n) := by
  simp only [regWrite, h, ha]

/-- R35 (c). -/
theorem regRead_writeOnly {r : Reg} (h : Reg.ofNum? n = some r) (ha : r.access = .writeOnly) :
    regRead n s = .refused (.readOfWriteOnly n) := by
  simp only [regRead, h, ha]

end

/-! ### Every other transaction is answered -/

theorem Txn.meaningful_read_iff {n : Fin 32} :
    (Txn.read n).meaningful = true ↔ ∃ r, Reg.ofNum? n = some r ∧ r.access ≠ .writeOnly := by
  cases h : Reg.ofNum? n <;> simp [Txn.meaningful, h]

theorem Txn.meaningful_write_iff {n : Fin 32} {v : Word} :
    (Txn.write n v).meaningful = true ↔ ∃ r, Reg.ofNum? n = some r ∧ r.access ≠ .readOnly := by
  cases h : Reg.ofNum? n <;> simp [Txn.meaningful, h]

/-- `CMD` is the one write-only register (R12). -/
theorem Reg.eq_cmd_of_writeOnly {r : Reg} (h : r.access = .writeOnly) : r = .cmd := by
  cases r with
  | cmd => rfl
  | _ => cases h

theorem execDescload_answers (slot : Nat) (s : State) : ∃ t, execDescload slot s = .next t := by
  unfold execDescload
  repeat' split
  all_goals exact ⟨_, rfl⟩

theorem execDecode_answers (slot : Nat) (s : State) : ∃ t, execDecode slot s = .next t := by
  unfold execDecode
  repeat' split
  all_goals exact ⟨_, rfl⟩

theorem execClassify_answers (s : State) : ∃ t, execClassify s = .next t := by
  unfold execClassify
  repeat' split
  all_goals exact ⟨_, rfl⟩

/-- Every command completes, in every state: "There is no third outcome" (60_exceptions.md R123). -/
theorem exec_answers (i : Instr) (s : State) : ∃ t, exec i s = .next t := by
  cases i with
  | descload slot => exact execDescload_answers slot s
  | decode slot => exact execDecode_answers slot s
  | classify => exact execClassify_answers s

theorem runCommandWord_answers (v : Word) (s : State) : ∃ t, runCommandWord v s = .next t := by
  cases h : decodeWord v with
  | ok i => rw [runCommandWord_ok h]; exact exec_answers i s
  | error e => exact ⟨_, runCommandWord_error h s⟩

/-- A transaction R35 does not exclude takes a next state, in every state. -/
theorem transact_answers {x : Txn} (h : x.meaningful = true) (s : State) : ∃ t, transact x s = .next t := by
  cases x with
  | read n =>
    obtain ⟨r, hr, ha⟩ := Txn.meaningful_read_iff.1 h
    exact ⟨_, regRead_readable hr ha⟩
  | write n v =>
    obtain ⟨r, hr, ha⟩ := Txn.meaningful_write_iff.1 h
    cases haccess : r.access with
    | readWrite => exact ⟨_, regWrite_operand hr haccess v⟩
    | readOnly => exact absurd haccess ha
    | writeOnly =>
      obtain rfl := Reg.eq_cmd_of_writeOnly haccess
      obtain rfl : n = 8 := Reg.ofNum?_inv hr
      exact runCommandWord_answers v s
  | reset => exact ⟨_, rfl⟩

/-- Settles O10: each access of R35 is refused by the port's own row for it, and a transaction with a meaning takes a
next state, so it is not refused. -/
theorem meaninglessAccessesRefused : Obligations.MeaninglessAccessesRefused := by
  unfold Obligations.MeaninglessAccessesRefused
  refine ⟨fun s n v => ⟨fun hn => ?_, fun hn => ?_⟩, fun s => ?_, fun s x r hrefused => ?_⟩
  · have hnone := Reg.ofNum?_eq_none_iff.2 hn
    exact ⟨regRead_unimplemented hnone, regWrite_unimplemented hnone v⟩
  · obtain ⟨r, hr, ha⟩ := Reg.readOnly_iff.2 hn
    exact regWrite_readOnly hr ha v
  · exact regRead_writeOnly (s := s) (Reg.ofNum?_num .cmd) rfl
  · cases hmeaningful : x.meaningful with
    | false => rfl
    | true =>
      obtain ⟨t, hnext⟩ := transact_answers hmeaningful s
      rw [hnext] at hrefused
      cases hrefused

end Sys2Proof.Machine

/-! ## Command words (30_encoding.md): the decoder and the encoder, the opcode map, illegal words, pseudo-instructions -/

namespace Sys2Proof

open Laws.EncodedFields (opcode slotField)

/-! ### The fields of a command word (R45) -/

theorem toNat_cmdOpc (c : Word) : (cmdOpc c).toNat = c.toNat % 2 ^ 8 := by
  rw [cmdOpc, BitVec.extractLsb'_toNat, Nat.shiftRight_zero]

theorem toNat_cmdSlot (c : Word) : (cmdSlot c).toNat = c.toNat / 2 ^ 8 % 2 ^ 4 := by
  rw [cmdSlot, BitVec.extractLsb'_toNat, Nat.shiftRight_eq_div_pow]

theorem toNat_cmdZero (c : Word) : (cmdZero c).toNat = c.toNat / 2 ^ 12 := by
  have := c.isLt
  rw [cmdZero, BitVec.extractLsb'_toNat, Nat.shiftRight_eq_div_pow]
  omega

/-- A command word is its three fields. -/
theorem toNat_eq_cmdFields (c : Word) :
    c.toNat = 2 ^ 8 * (2 ^ 4 * (cmdZero c).toNat + (cmdSlot c).toNat) + (cmdOpc c).toNat := by
  rw [toNat_cmdZero, toNat_cmdSlot, toNat_cmdOpc]
  omega

/-! ### Decoding and encoding (R46, R55) -/

theorem Instr.wf_iff {i : Instr} : i.wf = true ↔ slotField i < 16 := by
  cases i <;> simp [Instr.wf, slotFits, slotField]

theorem opcode_lt (i : Instr) : opcode i < 2 ^ 8 := by cases i <;> simp [opcode]

theorem toNat_encode {i : Instr} (h : i.wf = true) : (encode i).toNat = opcode i + slotField i * 256 := by
  cases i with
  | descload slot => exact (Laws.EncodedFields.descload slot h).1
  | decode slot => exact (Laws.EncodedFields.decode slot h).1
  | classify => exact (Laws.EncodedFields.classify h).1

/-- A word decodes to the command whose opcode and slot stand in its fields, if the reserved bits are 0. -/
theorem decodeWord_eq_ok_iff_fields {c : Word} {i : Instr} :
    decodeWord c = .ok i ↔
      (cmdZero c).toNat = 0 ∧ (cmdSlot c).toNat = slotField i ∧ (cmdOpc c).toNat = opcode i := by
  constructor
  · intro h
    unfold decodeWord at h
    split_ifs at h with hzero hdescload hdecode hclassify hslot <;> cases h
    all_goals rw [not_not.1 hzero]
    · exact ⟨rfl, rfl, congrArg BitVec.toNat hdescload⟩
    · exact ⟨rfl, rfl, congrArg BitVec.toNat hdecode⟩
    · exact ⟨rfl, congrArg BitVec.toNat hslot, congrArg BitVec.toNat hclassify⟩
  · rintro ⟨hz, hslot, hopc⟩
    have hzero : cmdZero c = 0 := BitVec.eq_of_toNat_eq hz
    cases i with
    | descload slot =>
      have hdescload : cmdOpc c = 0x01 := BitVec.eq_of_toNat_eq hopc
      simp [decodeWord, hzero, hdescload, hslot, slotField]
    | decode slot =>
      have hdecode : cmdOpc c = 0x02 := BitVec.eq_of_toNat_eq hopc
      simp [decodeWord, hzero, hdecode, hslot, slotField]
    | classify =>
      have hclassify : cmdOpc c = 0x03 := BitVec.eq_of_toNat_eq hopc
      have hslot0 : cmdSlot c = 0 := BitVec.eq_of_toNat_eq hslot
      simp [decodeWord, hzero, hclassify, hslot0]

/-- The decoder and the encoder are inverse to each other on the legal words and the well-formed commands. -/
theorem decodeWord_eq_ok_iff {c : Word} {i : Instr} : decodeWord c = .ok i ↔ i.wf = true ∧ encode i = c := by
  rw [decodeWord_eq_ok_iff_fields]
  constructor
  · rintro ⟨hzero, hslot, hopc⟩
    have hwf : i.wf = true := Instr.wf_iff.2 (hslot ▸ (cmdSlot c).isLt)
    refine ⟨hwf, BitVec.eq_of_toNat_eq ?_⟩
    rw [toNat_encode hwf, toNat_eq_cmdFields c, hzero, hslot, hopc]
    omega
  · rintro ⟨hwf, rfl⟩
    have hslot := Instr.wf_iff.1 hwf
    have hopc := opcode_lt i
    rw [toNat_cmdZero, toNat_cmdSlot, toNat_cmdOpc, toNat_encode hwf]
    omega

/-- Settles O1: the well-formed commands are those the decoder gives back from their word. -/
theorem decodeOfEncode : Obligations.DecodeOfEncode := by
  unfold Obligations.DecodeOfEncode
  exact fun i hwf => decodeWord_eq_ok_iff.2 ⟨hwf, rfl⟩

/-- Settles O2: a word that decodes has the fields of the command, and those are the whole word. -/
theorem encodeOfDecode : Obligations.EncodeOfDecode := by
  unfold Obligations.EncodeOfDecode
  exact fun c i h => decodeWord_eq_ok_iff.1 h

/-- Settles O4, by running the decoder on each word. -/
theorem writtenOutWordsDecode : Obligations.WrittenOutWordsDecode := by
  unfold Obligations.WrittenOutWordsDecode
  exact ⟨rfl, rfl, rfl, rfl, rfl, rfl, rfl, rfl⟩

/-! ### The opcode map by match and mask (R46) -/

/-- The mask of `DESCLOAD` and `DECODE` keeps `ZERO` and `OPC` and drops `SLOT`. -/
theorem toNat_and_slotMask (c : Word) :
    (c &&& 0xFFFFFFFFFFFFF0FF).toNat = 2 ^ 12 * (cmdZero c).toNat + (cmdOpc c).toNat := by
  have hmask : (0xFFFFFFFFFFFFF0FF : Word).toNat = 2 ^ 8 * (2 ^ 4 * (2 ^ 52 - 1) + 0) + (2 ^ 8 - 1) := by decide
  rw [BitVec.toNat_and, hmask, toNat_eq_cmdFields c, Machine.and_of_parts (cmdOpc c).isLt (by decide),
    Machine.and_of_parts (cmdSlot c).isLt (by decide), Nat.and_two_pow_sub_one_of_lt_two_pow (cmdZero c).isLt,
    Nat.and_two_pow_sub_one_of_lt_two_pow (cmdOpc c).isLt, Nat.and_zero]
  omega

theorem and_slotMask_eq_iff {c m : Word} (hm : m.toNat < 2 ^ 8) :
    c &&& 0xFFFFFFFFFFFFF0FF = m ↔ (cmdZero c).toNat = 0 ∧ (cmdOpc c).toNat = m.toNat := by
  have hopc := (cmdOpc c).isLt
  rw [← BitVec.toNat_inj, toNat_and_slotMask]
  omega

theorem toNat_shiftRight_eight_mod (c : Word) : (c >>> 8).toNat % 16 = (cmdSlot c).toNat := by
  rw [BitVec.toNat_ushiftRight, Nat.shiftRight_eq_div_pow, toNat_cmdSlot]
  rfl

/-- The fields of a row with a slot, read off the word by the row's match and mask. -/
theorem fields_iff_match {c m : Word} {k : Nat} (hm : m.toNat < 2 ^ 8) :
    ((cmdZero c).toNat = 0 ∧ (cmdSlot c).toNat = k ∧ (cmdOpc c).toNat = m.toNat) ↔
      c &&& 0xFFFFFFFFFFFFF0FF = m ∧ k = (c >>> 8).toNat % 16 := by
  rw [and_slotMask_eq_iff hm, toNat_shiftRight_eight_mod]
  omega

/-- The row of `DESCLOAD`. -/
theorem decodeWord_descload_iff {c : Word} {k : Nat} :
    decodeWord c = .ok (.descload k) ↔ c &&& 0xFFFFFFFFFFFFF0FF = 0x1 ∧ k = (c >>> 8).toNat % 16 :=
  decodeWord_eq_ok_iff_fields.trans (fields_iff_match (m := 0x1) (by decide))

/-- The row of `DECODE`. -/
theorem decodeWord_decode_iff {c : Word} {k : Nat} :
    decodeWord c = .ok (.decode k) ↔ c &&& 0xFFFFFFFFFFFFF0FF = 0x2 ∧ k = (c >>> 8).toNat % 16 :=
  decodeWord_eq_ok_iff_fields.trans (fields_iff_match (m := 0x2) (by decide))

/-- The row of `CLASSIFY`: its mask keeps the whole word. -/
theorem decodeWord_classify_iff {c : Word} : decodeWord c = .ok .classify ↔ c = 0x3 := by
  rw [decodeWord_eq_ok_iff, eq_comm (b := c)]
  exact and_iff_right rfl

/-- Settles O3, row by row. -/
theorem opcodeMapMatchAndMask : Obligations.OpcodeMapMatchAndMask := by
  unfold Obligations.OpcodeMapMatchAndMask
  intro c k
  refine ⟨decodeWord_descload_iff, decodeWord_decode_iff, ?_⟩
  have hmask : c &&& 0xFFFFFFFFFFFFFFFF = c := BitVec.and_allOnes
  rw [hmask]
  exact decodeWord_classify_iff

/-! ### Words that match no row (R47) -/

/-- A word that matches no row does not decode. -/
theorem decodeWord_error_of_noRow {c : Word} (hdescload : c &&& 0xFFFFFFFFFFFFF0FF ≠ 0x1)
    (hdecode : c &&& 0xFFFFFFFFFFFFF0FF ≠ 0x2) (hclassify : c ≠ 0x3) : ∃ e, decodeWord c = .error e := by
  cases h : decodeWord c with
  | error e => exact ⟨e, rfl⟩
  | ok i =>
    cases i with
    | descload k => exact absurd (decodeWord_descload_iff.1 h).1 hdescload
    | decode k => exact absurd (decodeWord_decode_iff.1 h).1 hdecode
    | classify => exact absurd (decodeWord_classify_iff.1 h) hclassify

theorem toNat_and_opcMask (c : Word) : (c &&& 0xFF).toNat = (cmdOpc c).toNat := by
  rw [toNat_cmdOpc, BitVec.toNat_and]
  exact Nat.and_two_pow_sub_one_eq_mod c.toNat 8

theorem and_opcMask_eq_iff {c m : Word} : c &&& 0xFF = m ↔ (cmdOpc c).toNat = m.toNat := by
  rw [← BitVec.toNat_inj, toNat_and_opcMask]

theorem shiftRight_twelve_eq_zero_iff {c : Word} : c >>> 12 = 0 ↔ (cmdZero c).toNat = 0 := by
  rw [← BitVec.toNat_inj, BitVec.toNat_ushiftRight, Nat.shiftRight_eq_div_pow, toNat_cmdZero]
  rfl

theorem shiftRight_eight_and_eq_zero_iff {c : Word} : (c >>> 8) &&& 0xF = 0 ↔ (cmdSlot c).toNat = 0 := by
  have hmask : ((c >>> 8) &&& 0xF).toNat = (c >>> 8).toNat % 2 ^ 4 := Nat.and_two_pow_sub_one_eq_mod _ 4
  rw [← BitVec.toNat_inj, hmask, ← toNat_shiftRight_eight_mod]
  rfl

theorem eq_classifyWord_iff {c : Word} :
    c = 0x3 ↔ (cmdZero c).toNat = 0 ∧ (cmdSlot c).toNat = 0 ∧ (cmdOpc c).toNat = 3 :=
  decodeWord_classify_iff.symm.trans decodeWord_eq_ok_iff_fields

/-- The words R47 lists, and the words that match no row of R46, are the same: both are conditions on the fields. -/
theorem illegal_iff_noRow (c : Word) :
    (c &&& 0xFF = 0x00 ∨ 0x04 ≤ (c &&& 0xFF).toNat ∨ c >>> 12 ≠ 0 ∨ (c &&& 0xFF = 0x03 ∧ (c >>> 8) &&& 0xF ≠ 0)) ↔
    (c &&& 0xFFFFFFFFFFFFF0FF ≠ 0x1 ∧ c &&& 0xFFFFFFFFFFFFF0FF ≠ 0x2 ∧ c ≠ 0x3) := by
  have hdescload : c &&& 0xFFFFFFFFFFFFF0FF = 0x1 ↔ (cmdZero c).toNat = 0 ∧ (cmdOpc c).toNat = 1 :=
    and_slotMask_eq_iff (by decide)
  have hdecode : c &&& 0xFFFFFFFFFFFFF0FF = 0x2 ↔ (cmdZero c).toNat = 0 ∧ (cmdOpc c).toNat = 2 :=
    and_slotMask_eq_iff (by decide)
  have hopc0 : c &&& 0xFF = 0x00 ↔ (cmdOpc c).toNat = 0 := and_opcMask_eq_iff
  have hopc3 : c &&& 0xFF = 0x03 ↔ (cmdOpc c).toNat = 3 := and_opcMask_eq_iff
  rw [ne_eq, ne_eq, ne_eq, ne_eq, ne_eq, hdescload, hdecode, hopc0, hopc3, toNat_and_opcMask,
    shiftRight_twelve_eq_zero_iff, shiftRight_eight_and_eq_zero_iff, eq_classifyWord_iff (c := c)]
  omega

end Sys2Proof

namespace Sys2Proof.Machine

/-! ### `CMD` writes of an illegal word, and of a slot number past the table (R47) -/

/-- A `DESCLOAD` of a slot past the table raises `ERR_SLOT` (R130). -/
theorem execDescload_of_ndesc_le {s : State} {slot : Nat} (h : s.ndesc ≤ slot) :
    execDescload slot s = .next (s.errorCompletion .slot) := if_pos h

/-- A `DECODE` of a slot past the table raises `ERR_SLOT` (R115). -/
theorem execDecode_of_ndesc_le {s : State} {slot : Nat} (h : s.ndesc ≤ slot) :
    execDecode slot s = .next (s.errorCompletion .slot) := if_pos h

/-- `ERR_ILLEGAL` is code 4 (R126). -/
theorem State.errorCompletion_illegal (s : State) : s.errorCompletion .illegal = { s with
    rsign := 0, rexp := 0, rman := 0, rfmt := 0, rcls := 0, rtexp := 0, rsv := 0, rerr := 0, status := 0x040 } :=
  s.errorCompletion_eq .illegal

/-- `ERR_SLOT` is code 5 (R126). -/
theorem State.errorCompletion_slot (s : State) : s.errorCompletion .slot = { s with
    rsign := 0, rexp := 0, rman := 0, rfmt := 0, rcls := 0, rtexp := 0, rsv := 0, rerr := 0, status := 0x050 } :=
  s.errorCompletion_eq .slot

/-- A write of the word of a well-formed command to `CMD` executes the command (R17). -/
theorem transact_write_encode {i : Instr} (hwf : i.wf = true) (s : State) :
    transact (.write 8 (encode i)) s = exec i s := by
  rw [transact_write, regWrite_cmd, runCommandWord_ok (decodeWord_eq_ok_iff.2 ⟨hwf, rfl⟩)]

theorem encode_descload (slot : Nat) : encode (.descload slot) = BitVec.ofNat 64 (0x01 + slot * 2 ^ 8) := by
  rw [encode, encodeFields, Nat.shiftLeft_eq]; rfl

theorem encode_decode (slot : Nat) : encode (.decode slot) = BitVec.ofNat 64 (0x02 + slot * 2 ^ 8) := by
  rw [encode, encodeFields, Nat.shiftLeft_eq]; rfl

/-- Settles O5: a word without a row does not decode, so the port raises `ERR_ILLEGAL`; a word with a slot past the
table decodes, and its command raises `ERR_SLOT`. -/
theorem illegalWordRaisesErrIllegal : Obligations.IllegalWordRaisesErrIllegal := by
  unfold Obligations.IllegalWordRaisesErrIllegal
  refine ⟨fun s c hdescload hdecode hclassify => ?_, illegal_iff_noRow, fun s slot c hslot hndesc hc => ?_⟩
  · obtain ⟨e, he⟩ := decodeWord_error_of_noRow hdescload hdecode hclassify
    rw [transact_write, regWrite_cmd, runCommandWord_error he, s.errorCompletion_illegal]
  · obtain rfl | rfl := hc
    · rw [← s.errorCompletion_slot, ← execDescload_of_ndesc_le hndesc]
      exact encode_descload slot ▸ transact_write_encode (i := .descload slot) (Instr.wf_iff.2 hslot) s
    · rw [← s.errorCompletion_slot, ← execDecode_of_ndesc_le hndesc]
      exact encode_decode slot ▸ transact_write_encode (i := .decode slot) (Instr.wf_iff.2 hslot) s

/-! ### The pseudo-instructions of the host script (R54) -/

namespace Script

theorem descload_eq (slot : Nat) : descload slot = [.write 8 (BitVec.ofNat 64 (0x01 + slot * 2 ^ 8))] := by
  rw [← encode_descload]; rfl

theorem decode_eq (slot : Nat) : decode slot = [.write 8 (BitVec.ofNat 64 (0x02 + slot * 2 ^ 8))] := by
  rw [← encode_decode]; rfl

theorem descWord_eq (tw ew mw : Nat) (bias : Int) : descWord tw ew mw bias =
    BitVec.ofNat 64 (tw + ew * 2 ^ 8 + mw * 2 ^ 16 + (bias % 2 ^ 32).toNat * 2 ^ 32) := by
  simp only [descWord, Nat.shiftLeft_eq, BitVec.toNat_ofInt]
  rfl

theorem descTruncWord_eq (tw ew mw : Nat) (bias : Int) (t : Nat) : descTruncWord tw ew mw bias t =
    BitVec.ofNat 64 (tw + ew * 2 ^ 8 + mw * 2 ^ 16 + 2 ^ 23 + t * 2 ^ 24 + (bias % 2 ^ 32).toNat * 2 ^ 32) := by
  simp only [descTruncWord, Nat.shiftLeft_eq, BitVec.toNat_ofInt, Nat.one_mul]
  rfl

end Script

/-- Settles O14: each expansion is an operand write, or several, before the write of the command's word; the worked
encodings are computed. -/
theorem pseudoInstructionExpansions : Obligations.PseudoInstructionExpansions := by
  unfold Obligations.PseudoInstructionExpansions
  refine ⟨fun slot tw ew mw bias _ => ?_, fun slot tw ew mw t bias _ => ?_, fun slot p _ => ?_, fun e m ew bias => ?_,
    by decide, by decide, by decide⟩
  · rw [Script.desc, Script.descWord_eq, Script.descload_eq]; rfl
  · rw [Script.desct, Script.descTruncWord_eq, Script.descload_eq]; rfl
  · rw [Script.decodev, Script.decode_eq]; rfl
  · rw [Script.classifyv, BitVec.toNat_ofInt]; rfl

end Sys2Proof.Machine

/-! ## Descriptors (40_descriptor.md): validation, `DESCLOAD`, and the immutability of a valid slot -/

namespace Sys2Proof.Machine

/-! ### Validation of the staged descriptor (R57) -/

theorem widthsConsistent_iff {d : Word} :
    widthsConsistent d = true ↔ (dstgTW d).toNat = 1 + (dstgEW d).toNat + (dstgMW d).toNat :=
  decide_eq_true_iff

theorem truncationInRange_iff {d : Word} :
    truncationInRange d = true ↔
      (dstgTP d = true → 1 + (dstgEW d).toNat < (dstgT d).toNat ∧ (dstgT d).toNat < (dstgTW d).toNat) := by
  cases h : dstgTP d <;> simp [truncationInRange, h]

/-- Every native width is the one its number of bits implies. -/
theorem nativeWidth?_bits (w : NativeWidth) : nativeWidth? w.bits = some w := by cases w <;> rfl

theorem nativeWidth?_eq_none {n : Nat} (h16 : n ≠ 16) (h32 : n ≠ 32) (h64 : n ≠ 64) : nativeWidth? n = none := by
  simp only [nativeWidth?, if_neg h16, if_neg h32, if_neg h64]

/-- The first check of `validate` fails. -/
theorem validate_of_inconsistent {d : Word} (h : ¬widthsConsistent d = true) : validate d = .error .config := by
  simp only [validate, h, Bool.not_false, if_true]

/-- The second check of `validate` fails, whatever the first one says: both raise `ERR_CONFIG`. -/
theorem validate_of_outOfRange {d : Word} (h : ¬truncationInRange d = true) : validate d = .error .config := by
  simp only [validate, h, Bool.not_false, if_true, ite_self]

section
variable {d : Word} (hsum : widthsConsistent d = true) (hrange : truncationInRange d = true)
include hsum hrange

theorem validate_of_supported {w : NativeWidth} (hw : nativeWidth? (dstgTW d).toNat = some w) : validate d = .ok w := by
  simp [validate, hsum, hrange, hw]

theorem validate_of_unsupported (hw : nativeWidth? (dstgTW d).toNat = none) : validate d = .error .unsupported := by
  simp [validate, hsum, hrange, hw]

end

/-! ### `DESCLOAD` by its branches (R58, R130) -/

@[simp] theorem exec_descload (slot : Nat) (s : State) : exec (.descload slot) s = execDescload slot s := rfl

section
variable {s : State} {slot : Nat}

theorem execDescload_of_slotValid (h : s.slotValid slot = true) :
    execDescload slot s = .next (s.errorCompletion .slot) := by
  simp only [execDescload, h, if_true, ite_self]

theorem execDescload_of_validate_error {e : ErrCode} (hslot : slot < s.ndesc) (hempty : s.slotValid slot = false)
    (h : validate s.dstg = .error e) : execDescload slot s = .next (s.errorCompletion e) := by
  simp [execDescload, Nat.not_le_of_lt hslot, hempty, h]

end

/-- Settles O25: the two slot checks come before `validate`, and its checks before the width. -/
theorem descloadErrorsInOrder : Obligations.DescloadErrorsInOrder := by
  unfold Obligations.DescloadErrorsInOrder
  intro s slot
  rw [exec_descload]
  refine ⟨execDescload_of_ndesc_le, execDescload_of_slotValid, fun hslot hempty =>
    ⟨fun hsum => ?sum, fun htp hrange => ?range, fun hsum hrange h16 h32 h64 => ?width⟩⟩
  all_goals apply execDescload_of_validate_error hslot hempty
  case sum => exact validate_of_inconsistent (mt widthsConsistent_iff.1 hsum)
  case range => exact validate_of_outOfRange fun h => hrange (truncationInRange_iff.1 h htp)
  case width =>
    exact validate_of_unsupported (widthsConsistent_iff.2 hsum) (truncationInRange_iff.2 hrange)
      (nativeWidth?_eq_none h16 h32 h64)

/-- Settles O24: the fields of `DSTG` the statement names pass `validate`, which leaves the success completion. -/
theorem descloadInstallsDescriptor : Obligations.DescloadInstallsDescriptor := by
  unfold Obligations.DescloadInstallsDescriptor
  intro s slot w hslot hempty htw hsum hrange
  have hbits : (dstgTW s.dstg).toNat = w.bits := htw
  have hvalid : validate s.dstg = .ok w :=
    validate_of_supported (widthsConsistent_iff.2 (hbits.trans hsum)) (truncationInRange_iff.2 (hbits ▸ hrange))
      (hbits ▸ nativeWidth?_bits w)
  rw [exec_descload]
  exact execDescload_success hslot hempty hvalid

/-! ### A valid slot keeps its content (R59) -/

/-- `DESCLOAD` fills empty slots only. -/
theorem execDescload_keeps_descriptor {s t : State} {slot k : Nat} {d : Descriptor} (hd : s.descriptor? k = some d)
    (ht : execDescload slot s = .next t) : t.descriptor? k = some d := by
  obtain ⟨e, -, rfl⟩ | ⟨w, hslot, hempty, -, rfl⟩ := execDescload_cases ht
  · exact hd
  · have hk : k ≠ slot := by
      rintro rfl
      rw [hempty] at hd
      cases hd
    exact (s.clearResults.descriptor?_installSlot hslot _ k).trans ((if_neg hk).trans hd)

theorem execDecode_table {s t : State} {slot : Nat} (ht : execDecode slot s = .next t) : t.table = s.table := by
  obtain ⟨e, -, rfl⟩ | ⟨d, -, -, rfl⟩ := execDecode_cases ht
  · rfl
  · rfl

theorem execClassify_table {s t : State} (ht : execClassify s = .next t) : t.table = s.table := by
  obtain ⟨e, -, rfl⟩ | ⟨-, -, rfl⟩ := execClassify_cases ht
  · rfl
  · rfl

theorem exec_keeps_descriptor {s t : State} {i : Instr} {k : Nat} {d : Descriptor} (hd : s.descriptor? k = some d)
    (ht : exec i s = .next t) : t.descriptor? k = some d := by
  cases i with
  | descload slot => exact execDescload_keeps_descriptor hd ht
  | decode slot => exact (State.descriptor?_congr (execDecode_table ht) k).trans hd
  | classify => exact (State.descriptor?_congr (execClassify_table ht) k).trans hd

/-- Of the transactions only the reset event empties a slot. -/
theorem transact_keeps_descriptor {s t : State} {x : Txn} {k : Nat} {d : Descriptor} (hd : s.descriptor? k = some d)
    (hx : x ≠ .reset) (ht : transact x s = .next t) : t.descriptor? k = some d := by
  obtain ⟨n, r, -, -, rfl⟩ | ⟨n, v, r, -, -, -, rfl⟩ | ⟨v, i, -, -, hexec⟩ | ⟨v, e, -, -, rfl⟩ | ⟨hreset, -⟩ :=
    transact_cases ht
  · exact hd
  · exact (State.descriptor?_congr (s.writeReg_table r v) k).trans hd
  · exact exec_keeps_descriptor hd hexec
  · exact hd
  · exact absurd hreset hx

/-- Settles O23: no transaction but the reset event touches a valid slot, and a `DESCLOAD` that names one fails its slot
check. -/
theorem validSlotIsImmutable : Obligations.ValidSlotIsImmutable := by
  unfold Obligations.ValidSlotIsImmutable
  refine ⟨fun s t x k d => transact_keeps_descriptor, fun s k d hd => ?_⟩
  have hvalid : s.slotValid k = true := by rw [s.slotValid_eq_isSome, hd]; rfl
  rw [exec_descload, execDescload_of_slotValid hvalid, s.errorCompletion_slot]

end Sys2Proof.Machine

/-! ## The BitExtractor (41_bit_extractor.md): values of native patterns, rounding, overflow, truncation -/

namespace Sys2Proof.Machine

/-! ### The value of a magnitude pattern (R44)

A native pattern is a sign bit above a magnitude pattern. The value of a magnitude pattern grows with it, through every
change of binade, so that rounding can be spoken of as a choice between two neighbours. -/

/-- The value of the magnitude pattern `p` under the native layout (R41, R44). The formula of the normal numbers is used
for every exponent field but 0, so the infinity pattern gets the power of two where the finite values end. -/
def magValue (w : NativeWidth) (p : Nat) : ℚ :=
  if p / 2 ^ w.mwn = 0 then (p % 2 ^ w.mwn : Nat) * 2 ^ (w.emin - w.mwn)
  else (2 ^ w.mwn + (p % 2 ^ w.mwn : Nat)) * 2 ^ ((p / 2 ^ w.mwn : Nat) - w.biasn - w.mwn : Int)

/-- Below the smallest normal, and at it, a magnitude pattern counts quanta. -/
theorem magValue_of_le {w : NativeWidth} {k : Nat} (hk : k ≤ 2 ^ w.mwn) :
    magValue w k = k * 2 ^ (w.emin - w.mwn) := by
  have hpos : 0 < 2 ^ w.mwn := Nat.two_pow_pos _
  obtain hlt | rfl := Nat.lt_or_eq_of_le hk
  · rw [magValue, if_pos (Nat.div_eq_of_lt hlt), Nat.mod_eq_of_lt hlt]
  · rw [magValue, Nat.div_self hpos, Nat.mod_self, if_neg one_ne_zero, NativeWidth.emin]
    push_cast
    ring

/-- In a binade, and at the start of the next one, a magnitude pattern counts quanta above the binade's start. -/
theorem magValue_of_binade {w : NativeWidth} {e k : Nat} (he : 1 ≤ e) (hk : k ≤ 2 ^ w.mwn) :
    magValue w (e * 2 ^ w.mwn + k) = (2 ^ w.mwn + k) * 2 ^ (e - w.biasn - w.mwn : Int) := by
  have hpos : 0 < 2 ^ w.mwn := Nat.two_pow_pos _
  obtain hlt | rfl := Nat.lt_or_eq_of_le hk
  · have hdiv : (e * 2 ^ w.mwn + k) / 2 ^ w.mwn = e := by
      rw [Nat.mul_comm, Nat.mul_add_div hpos, Nat.div_eq_of_lt hlt, Nat.add_zero]
    have hmod : (e * 2 ^ w.mwn + k) % 2 ^ w.mwn = k := by
      rw [Nat.mul_comm, Nat.mul_add_mod, Nat.mod_eq_of_lt hlt]
    rw [magValue, hdiv, hmod, if_neg (Nat.ne_of_gt he)]
  · have hsucc : e * 2 ^ w.mwn + 2 ^ w.mwn = (e + 1) * 2 ^ w.mwn := by ring
    have hexp : ((e + 1 : Nat) - w.biasn - w.mwn : Int) = (e - w.biasn - w.mwn) + 1 := by push_cast; ring
    rw [hsucc, magValue, Nat.mul_div_cancel _ hpos, Nat.mul_mod_left, if_neg (Nat.succ_ne_zero e), hexp,
      zpow_add_one₀ two_ne_zero]
    push_cast
    ring

theorem magValue_zero (w : NativeWidth) : magValue w 0 = 0 := by
  rw [magValue_of_le (Nat.zero_le _), Nat.cast_zero, zero_mul]

theorem magValue_lt_succ (w : NativeWidth) (p : Nat) : magValue w p < magValue w (p + 1) := by
  have hmod : p % 2 ^ w.mwn < 2 ^ w.mwn := Nat.mod_lt _ (Nat.two_pow_pos _)
  have hsplit : p / 2 ^ w.mwn * 2 ^ w.mwn + p % 2 ^ w.mwn = p := Nat.div_add_mod' _ _
  generalize p / 2 ^ w.mwn = e at hsplit
  generalize p % 2 ^ w.mwn = k at hsplit hmod
  subst hsplit
  obtain rfl | he := Nat.eq_zero_or_pos e
  · rw [Nat.zero_mul, Nat.zero_add, magValue_of_le hmod.le, magValue_of_le hmod]
    gcongr
    exact Nat.lt_succ_self k
  · rw [Nat.add_assoc, magValue_of_binade he hmod.le, magValue_of_binade he hmod]
    gcongr
    exact Nat.lt_succ_self k

theorem magValue_strictMono (w : NativeWidth) : StrictMono (magValue w) :=
  strictMono_nat_of_lt_succ (magValue_lt_succ w)

theorem magValue_nonneg (w : NativeWidth) (p : Nat) : 0 ≤ magValue w p :=
  magValue_zero w ▸ (magValue_strictMono w).monotone (Nat.zero_le p)

/-! ### The value of a native pattern (R44) -/

theorem abs_signed (s : Bool) {x : ℚ} (hx : 0 ≤ x) : |signed s x| = x := by
  cases s <;> simp [signed, abs_of_nonneg hx]

/-- The sign bit of a native pattern (R41). -/
def nativeSign (w : NativeWidth) (p : Nat) : Bool := decide (bitField p (w.bits - 1) 1 = 1)

/-- A native pattern without its sign bit (R41). -/
def nativeMag (w : NativeWidth) (p : Nat) : Nat := p % 2 ^ (w.bits - 1)

theorem NativeWidth.bits_sub_one (w : NativeWidth) : w.bits - 1 = w.ewn + w.mwn := by cases w <;> rfl

theorem bitField_exp_eq (w : NativeWidth) (p : Nat) : bitField p w.mwn w.ewn = nativeMag w p / 2 ^ w.mwn := by
  rw [bitField_eq, nativeMag, w.bits_sub_one, Nat.add_comm, Nat.pow_add, Nat.mod_mul_right_div_self]

theorem bitField_man_eq (w : NativeWidth) (p : Nat) : bitField p 0 w.mwn = nativeMag w p % 2 ^ w.mwn := by
  rw [bitField_eq, nativeMag, w.bits_sub_one, pow_zero, Nat.div_one, Nat.pow_add,
    Nat.mod_mod_of_dvd _ (Nat.dvd_mul_left _ _)]

theorem lt_infMag_iff (w : NativeWidth) (mag : Nat) : mag < w.infMag ↔ mag / 2 ^ w.mwn < ones w.ewn := by
  rw [NativeWidth.infMag, Nat.shiftLeft_eq, Nat.div_lt_iff_lt_mul (Nat.two_pow_pos _)]

/-- The value of a native pattern by its sign and its magnitude: the magnitudes below infinity's are the finite values,
those above it the NaNs (R43, R44). -/
theorem valNative_eq (w : NativeWidth) (p : Nat) : valNative w p =
    if nativeMag w p < w.infMag then some (.finite (signed (nativeSign w p) (magValue w (nativeMag w p))))
    else if nativeMag w p = w.infMag then some (if nativeSign w p then .minusInf else .plusInf)
    else none := by
  have hsign : decide (bitField p (w.ewn + w.mwn) 1 = 1) = nativeSign w p := by rw [nativeSign, w.bits_sub_one]
  have hlt := lt_infMag_iff w (nativeMag w p)
  have hones : 0 < ones w.ewn := by cases w <;> decide
  have hle : nativeMag w p / 2 ^ w.mwn ≤ ones w.ewn := by
    rw [← bitField_exp_eq]
    exact Nat.le_sub_one_of_lt (bitField_lt _ _ _)
  have hsplit : nativeMag w p / 2 ^ w.mwn * 2 ^ w.mwn + nativeMag w p % 2 ^ w.mwn = nativeMag w p :=
    Nat.div_add_mod' _ _
  simp only [valNative, val, bitField_exp_eq, bitField_man_eq, hsign]
  by_cases hzero : nativeMag w p / 2 ^ w.mwn = 0
  · rw [if_pos hzero, if_pos (hlt.2 (hzero ▸ hones)), magValue, if_pos hzero, NativeWidth.emin]
  rw [if_neg hzero]
  by_cases hfin : nativeMag w p / 2 ^ w.mwn < ones w.ewn
  · rw [if_pos hfin, if_pos (hlt.2 hfin), magValue, if_neg hzero]
  · have heq : nativeMag w p = w.infMag ↔ nativeMag w p % 2 ^ w.mwn = 0 := by
      rw [NativeWidth.infMag, Nat.shiftLeft_eq, ← Nat.le_antisymm hle (Nat.le_of_not_lt hfin)]
      omega
    rw [if_neg hfin, if_neg (mt hlt.1 hfin)]
    simp only [heq]

theorem valNative_eq_finite_iff {w : NativeWidth} {p : Nat} {z : ℚ} :
    valNative w p = some (.finite z) ↔
      nativeMag w p < w.infMag ∧ z = signed (nativeSign w p) (magValue w (nativeMag w p)) := by
  rw [valNative_eq]
  split_ifs with h <;> simp [h, eq_comm]

theorem valNative_eq_infinity_iff {w : NativeWidth} {p : Nat} :
    (valNative w p = some .plusInf ∨ valNative w p = some .minusInf) ↔ nativeMag w p = w.infMag := by
  rw [valNative_eq]
  split_ifs with hlt heq hsign
  · simp [hlt.ne]
  · simp [heq]
  · simp [heq]
  · simp [heq]

/-! ### The value of an operand (R43, R69) -/

/-- The operand's magnitude `m × 2^q` (R69). -/
def operandMag (v : Word) : ℚ := significand64 v * 2 ^ scale64 v

theorem nativeSign_toNat (v : Word) : nativeSign .w64 v.toNat = sign64 v := by
  have := v.isLt
  rw [sign64_eq, nativeSign, bitField_eq, NativeWidth.bits, decide_eq_decide]
  omega

/-- The exact decomposition of R69. -/
theorem magValue_toNat (v : Word) : magValue .w64 (nativeMag .w64 v.toNat) = operandMag v := by
  have hexp : nativeMag .w64 v.toNat / 2 ^ 52 = exp64 v := by
    rw [exp64_eq]; exact (bitField_exp_eq .w64 v.toNat).symm.trans (bitField_eq _ _ _)
  have hman : nativeMag .w64 v.toNat % 2 ^ 52 = man64 v := by
    rw [man64_eq]; exact (bitField_man_eq .w64 v.toNat).symm
  simp only [magValue, NativeWidth.mwn, NativeWidth.emin, NativeWidth.biasn, hexp, hman, operandMag, significand64,
    scale64]
  split
  · norm_num
  · push_cast
    congr 2
    ring

theorem nativeMag_lt_infMag_iff (v : Word) : nativeMag .w64 v.toNat < NativeWidth.infMag .w64 ↔ exp64 v ≠ 2047 := by
  have hinf : NativeWidth.infMag .w64 = 2047 * 2 ^ 52 := rfl
  rw [exp64_eq, hinf, nativeMag, NativeWidth.bits]
  omega

theorem val64_eq_finite_iff {v : Word} {y : ℚ} :
    val64 v = some (.finite y) ↔ exp64 v ≠ 2047 ∧ y = signed (sign64 v) (operandMag v) := by
  rw [← nativeMag_lt_infMag_iff, ← nativeSign_toNat, ← magValue_toNat]
  exact valNative_eq_finite_iff (w := .w64) (p := v.toNat)

theorem operandMag_nonneg (v : Word) : 0 ≤ operandMag v := magValue_toNat v ▸ magValue_nonneg _ _


/-! ### Packing by kind of operand (R68) -/

theorem pack_of_narrow {w : NativeWidth} (hw : w ≠ .w64) (v : Word) : pack w v = packNarrow w v := by
  cases w with
  | w64 => exact absurd rfl hw
  | _ => rfl

theorem packNarrow_of_infinite {v : Word} (h : exp64 v = 2047) (w : NativeWidth) :
    packNarrow w v = { pattern := w.withSign (sign64 v) w.infMag, ovf := false } := if_pos h

theorem packNarrow_of_zero {v : Word} (h : isZero64 v = true) (w : NativeWidth) :
    packNarrow w v = { pattern := w.withSign (sign64 v) 0, ovf := false } := by
  have hexp : exp64 v ≠ 2047 := by
    simp only [isZero64, Bool.and_eq_true, decide_eq_true_eq] at h
    omega
  rw [packNarrow, if_neg hexp, if_pos h]

/-- Settles O33: `pack_64` hands the operand on, and the infinities and zeros take their own branch at both narrow
widths. -/
theorem packSpecialOperands : Obligations.PackSpecialOperands := by
  unfold Obligations.PackSpecialOperands
  refine ⟨fun v => rfl, ?_, ?_, ?_, ?_, ?_, ?_, ?_, ?_⟩
  · exact packNarrow_of_infinite (by decide) .w16
  · exact packNarrow_of_infinite (by decide) .w16
  · exact packNarrow_of_infinite (by decide) .w32
  · exact packNarrow_of_infinite (by decide) .w32
  · exact packNarrow_of_zero (by decide) .w16
  · exact packNarrow_of_zero (by decide) .w16
  · exact packNarrow_of_zero (by decide) .w32
  · exact packNarrow_of_zero (by decide) .w32

theorem packedMag_of_zero {v : Word} (h : isZero64 v = true) (w : NativeWidth) : packedMag w v = 0 := by
  simp only [isZero64, Bool.and_eq_true, decide_eq_true_eq] at h
  obtain ⟨hexp, hman⟩ := h
  have hsig : significand64 v = 0 := by rw [significand64, if_pos hexp, hman]
  have hlead : ¬ leadExp64 v ≥ w.emin := by
    rw [leadExp64, hsig, scale64, if_pos hexp, bitlen_zero]
    cases w <;> decide
  have hround : ∀ sh, roundNearestEven 0 sh = 0 := fun sh => by simp [roundNearestEven]
  simp only [packedMag, if_neg hlead, hsig, hround]

theorem NativeWidth.infMag_pos (w : NativeWidth) : 0 < w.infMag := by cases w <;> decide

/-- A zero needs no branch of its own: the rules R69 to R73 would pack it to the zero of its sign. -/
theorem packNarrow_of_finite {v : Word} (h : exp64 v ≠ 2047) (w : NativeWidth) : packNarrow w v = packFinite w v := by
  rw [packNarrow, if_neg h]
  split
  next hzero => rw [packFinite, packedMag_of_zero hzero, if_pos w.infMag_pos]
  next => rfl

/-! ### The two neighbours of an operand (R69 to R71) -/

/-- `n` of R70 before rounding. -/
def keptSig (w : NativeWidth) (v : Word) : Nat := significand64 v / 2 ^ roundShift w v

/-- The assembly of R71, for any `n`. -/
def assembledMag (w : NativeWidth) (v : Word) (n : Nat) : Nat :=
  if leadExp64 v ≥ w.emin then (leadExp64 v + w.biasn).toNat <<< w.mwn + (n - 2 ^ w.mwn) else n

/-- The magnitude pattern next below an operand, or at it. -/
def floorMag (w : NativeWidth) (v : Word) : Nat := assembledMag w v (keptSig w v)

theorem packedMag_eq (w : NativeWidth) (v : Word) :
    packedMag w v = assembledMag w v (roundNearestEven (significand64 v) (roundShift w v)) := rfl

theorem bitlen_significand {v : Word} (h : exp64 v ≠ 0) : bitlen (significand64 v) = 53 := by
  have hman := man64_lt v
  rw [significand64, if_neg h]
  apply Nat.le_antisymm
  · rw [bitlen_le_iff]; omega
  · by_contra hlt
    have := (bitlen_le_iff (2 ^ 52 + man64 v) 52).1 (by omega)
    omega

theorem NativeWidth.narrow_bounds {w : NativeWidth} (hw : w ≠ .w64) : w.mwn ≤ 23 ∧ -149 ≤ w.emin - w.mwn := by
  cases w with
  | w64 => exact absurd rfl hw
  | _ => decide

section
variable {w : NativeWidth} (hw : w ≠ .w64) (v : Word)
include hw

/-- Packing to a narrower width always drops bits: `sh ≥ 1` (R69). -/
theorem scale_lt_quantumExp : scale64 v < quantumExp w v := by
  obtain ⟨hmwn, hemin⟩ := w.narrow_bounds hw
  have hlead := le_max_left (leadExp64 v) w.emin
  have hsub := le_max_right (leadExp64 v) w.emin
  rw [quantumExp]
  by_cases hexp : exp64 v = 0
  · rw [scale64, if_pos hexp]; omega
  · have hval : leadExp64 v = scale64 v + 53 - 1 := by rw [leadExp64, bitlen_significand hexp]; rfl
    omega

theorem roundShift_cast : (roundShift w v : Int) = quantumExp w v - scale64 v :=
  Int.toNat_of_nonneg (sub_nonneg.2 (scale_lt_quantumExp hw v).le)

theorem roundShift_pos : 1 ≤ roundShift w v := by
  have hcast := roundShift_cast hw v
  have := scale_lt_quantumExp hw v
  omega

theorem two_zpow_quantumExp : (2 : ℚ) ^ quantumExp w v = 2 ^ roundShift w v * 2 ^ scale64 v := by
  rw [← zpow_natCast, roundShift_cast hw, ← zpow_add₀ two_ne_zero, sub_add_cancel]

/-- A normal target keeps `mw + 1` bits (R70). -/
theorem keptSig_of_normal (h : w.emin ≤ leadExp64 v) : 2 ^ w.mwn ≤ keptSig w v ∧ keptSig w v < 2 ^ (w.mwn + 1) := by
  have hcast := roundShift_cast hw v
  have hlen : bitlen (significand64 v) = w.mwn + 1 + roundShift w v := by
    rw [quantumExp, max_eq_left h, leadExp64] at hcast
    omega
  have hpos : 0 < significand64 v := by
    by_contra h0
    rw [Nat.eq_zero_of_not_pos h0, bitlen_zero] at hlen
    omega
  obtain ⟨hlow, hhigh, -⟩ := bitlen_bounds hpos
  rw [hlen] at hlow hhigh
  rw [Nat.add_right_comm, Nat.add_sub_cancel, Nat.pow_add] at hlow
  rw [Nat.pow_add] at hhigh
  exact ⟨(Nat.le_div_iff_mul_le (Nat.two_pow_pos _)).2 hlow, (Nat.div_lt_iff_lt_mul (Nat.two_pow_pos _)).2 hhigh⟩

/-- A subnormal target keeps at most `mw` bits (R70). -/
theorem keptSig_of_subnormal (h : leadExp64 v < w.emin) : keptSig w v < 2 ^ w.mwn := by
  have hcast := roundShift_cast hw v
  have hlen : bitlen (significand64 v) ≤ w.mwn + roundShift w v := by
    rw [quantumExp, max_eq_right h.le] at hcast
    rw [leadExp64] at h
    omega
  rw [keptSig, Nat.div_lt_iff_lt_mul (Nat.two_pow_pos _), ← Nat.pow_add]
  exact (bitlen_le_iff _ _).1 hlen

/-- The assembled pattern has the value `n × 2^g`, a rounding carry into the next binade included (R71). -/
theorem magValue_assembledMag {n : Nat} (hn : keptSig w v ≤ n) (hn' : n ≤ keptSig w v + 1) :
    magValue w (assembledMag w v n) = n * 2 ^ quantumExp w v := by
  rw [assembledMag, quantumExp]
  split
  next h =>
    obtain ⟨hlow, hhigh⟩ := keptSig_of_normal hw v h
    have hexp : 1 ≤ (leadExp64 v + w.biasn).toNat := by rw [NativeWidth.emin] at h; omega
    have hcast : ((leadExp64 v + w.biasn).toNat : Int) - w.biasn - w.mwn = leadExp64 v - w.mwn := by omega
    rw [Nat.pow_succ] at hhigh
    rw [Nat.shiftLeft_eq, magValue_of_binade hexp (by omega), hcast, max_eq_left h, Nat.cast_sub (by omega)]
    push_cast
    ring
  next h =>
    have hlt := keptSig_of_subnormal hw v (lt_of_not_ge h)
    rw [magValue_of_le (by omega), max_eq_right (le_of_not_ge h)]

/-- One more quantum is the next pattern. -/
theorem assembledMag_succ : assembledMag w v (keptSig w v + 1) = floorMag w v + 1 := by
  rw [floorMag, assembledMag, assembledMag]
  split
  next h =>
    have hlow := (keptSig_of_normal hw v h).1
    omega
  next => rfl

theorem floorMag_mod_two : floorMag w v % 2 = keptSig w v % 2 := by
  rw [floorMag, assembledMag]
  split
  next h =>
    have hlow := (keptSig_of_normal hw v h).1
    have hstart : 2 ∣ 2 ^ w.mwn := dvd_pow_self 2 (by cases w <;> decide)
    have hbinade := hstart.mul_left (leadExp64 v + w.biasn).toNat
    rw [Nat.shiftLeft_eq]
    omega
  next => rfl

theorem magValue_floorMag :
    magValue w (floorMag w v) = (keptSig w v * 2 ^ roundShift w v : Nat) * 2 ^ scale64 v := by
  rw [floorMag, magValue_assembledMag hw v le_rfl (Nat.le_succ _), two_zpow_quantumExp hw]
  push_cast
  ring

theorem magValue_floorMag_succ :
    magValue w (floorMag w v + 1) = ((keptSig w v + 1) * 2 ^ roundShift w v : Nat) * 2 ^ scale64 v := by
  rw [← assembledMag_succ hw, magValue_assembledMag hw v (Nat.le_succ _) le_rfl, two_zpow_quantumExp hw]
  push_cast
  ring

end

/-- The number halfway between two neighbouring magnitude patterns. -/
def midpointAbove (w : NativeWidth) (p : Nat) : ℚ := (magValue w p + magValue w (p + 1)) / 2

theorem midpointAbove_bounds (w : NativeWidth) (p : Nat) :
    magValue w p ≤ midpointAbove w p ∧ midpointAbove w p ≤ magValue w (p + 1) := by
  have hlt := magValue_lt_succ w p
  rw [midpointAbove]
  constructor <;> linarith

section
variable {w : NativeWidth} (hw : w ≠ .w64) (v : Word)
include hw

theorem midpointAbove_floorMag : midpointAbove w (floorMag w v) =
    (keptSig w v * 2 ^ roundShift w v + 2 ^ (roundShift w v - 1) : Nat) * 2 ^ scale64 v := by
  obtain ⟨k, hk⟩ := Nat.exists_eq_add_of_le' (roundShift_pos hw v)
  rw [midpointAbove, magValue_floorMag hw, magValue_floorMag_succ hw, hk, Nat.add_sub_cancel]
  push_cast
  ring

theorem floorMag_bounds : magValue w (floorMag w v) ≤ operandMag v ∧ operandMag v < magValue w (floorMag w v + 1) := by
  have hpos := Nat.two_pow_pos (roundShift w v)
  rw [magValue_floorMag hw, magValue_floorMag_succ hw, operandMag, keptSig]
  constructor
  · gcongr
    exact Nat.div_mul_le_self _ _
  · gcongr
    exact Nat.lt_mul_of_div_lt (Nat.lt_succ_self _) hpos

/-- The packed magnitude is one of the operand's two neighbours, the nearer one, or the even one of two equally near
(R70, R71). -/
theorem packedMag_cases :
    (packedMag w v = floorMag w v ∧ operandMag v ≤ midpointAbove w (floorMag w v) ∨
      packedMag w v = floorMag w v + 1 ∧ midpointAbove w (floorMag w v) ≤ operandMag v) ∧
    (operandMag v = midpointAbove w (floorMag w v) → packedMag w v % 2 = 0) := by
  have hsplit : keptSig w v * 2 ^ roundShift w v + significand64 v % 2 ^ roundShift w v = significand64 v :=
    Nat.div_add_mod' _ _
  have hparity := floorMag_mod_two hw v
  have hunit : (0 : ℚ) < 2 ^ scale64 v := by positivity
  have hlt : midpointAbove w (floorMag w v) < operandMag v ↔
      2 ^ (roundShift w v - 1) < significand64 v % 2 ^ roundShift w v := by
    rw [midpointAbove_floorMag hw, operandMag, mul_lt_mul_iff_left₀ hunit, Nat.cast_lt]
    omega
  have heq : midpointAbove w (floorMag w v) = operandMag v ↔
      significand64 v % 2 ^ roundShift w v = 2 ^ (roundShift w v - 1) := by
    rw [midpointAbove_floorMag hw, operandMag, mul_left_inj' hunit.ne', Nat.cast_inj]
    omega
  rw [packedMag_eq, roundNearestEven, Nat.shiftRight_eq_div_pow, ← keptSig]
  split
  next hup =>
    rw [assembledMag_succ hw]
    refine ⟨.inr ⟨rfl, hup.elim (fun h => (hlt.2 h).le) (fun h => (heq.2 h.1).le)⟩, fun htie => ?_⟩
    have := heq.1 htie.symm
    omega
  next hdown =>
    refine ⟨.inl ⟨rfl, le_of_not_gt fun h => hdown (.inl (hlt.1 h))⟩, fun htie => ?_⟩
    have := heq.1 htie.symm
    rw [← floorMag]
    omega

end

/-! ### Round-to-nearest, ties-to-even (R70) -/

/-- Of a number between `a` and `b`, not above their midpoint, nothing outside is nearer than `a`. -/
theorem nearest_of_le_midpoint {a b c y : ℚ} (ha : a ≤ y) (hb : y ≤ b) (hc : c ≤ a ∨ b ≤ c) (hy : y ≤ (a + b) / 2) :
    |a - y| ≤ |c - y| ∧ (|a - y| = |c - y| → c ≠ a → y = (a + b) / 2) := by
  rw [abs_of_nonpos (sub_nonpos.2 ha)]
  obtain hc | hc := hc
  · rw [abs_of_nonpos (sub_nonpos.2 (hc.trans ha))]
    exact ⟨by linarith, fun heq hne => absurd (by linarith) hne⟩
  · rw [abs_of_nonneg (sub_nonneg.2 (hb.trans hc))]
    exact ⟨by linarith, fun heq _ => by linarith⟩

/-- Of a number between `a` and `b`, not below their midpoint, nothing outside is nearer than `b`: the mirror image. -/
theorem nearest_of_midpoint_le {a b c y : ℚ} (ha : a ≤ y) (hb : y ≤ b) (hc : c ≤ a ∨ b ≤ c) (hy : (a + b) / 2 ≤ y) :
    |b - y| ≤ |c - y| ∧ (|b - y| = |c - y| → c ≠ b → y = (a + b) / 2) := by
  obtain ⟨hnear, htie⟩ := nearest_of_le_midpoint (a := -b) (b := -a) (c := -c) (y := -y) (neg_le_neg hb) (neg_le_neg ha)
    (hc.symm.imp neg_le_neg neg_le_neg) (by linarith)
  rw [neg_sub_neg, neg_sub_neg, abs_sub_comm y b, abs_sub_comm y c] at hnear htie
  exact ⟨hnear, fun heq hne => by linarith [htie heq (mt neg_inj.1 hne)]⟩

section
variable {w : NativeWidth} (hw : w ≠ .w64) (v : Word)
include hw

/-- No magnitude pattern is nearer to the operand than the packed one, and if another one is as near the packed one is
even. -/
theorem packedMag_nearest (p : Nat) :
    |magValue w (packedMag w v) - operandMag v| ≤ |magValue w p - operandMag v| ∧
      (|magValue w (packedMag w v) - operandMag v| = |magValue w p - operandMag v| →
        magValue w p ≠ magValue w (packedMag w v) → packedMag w v % 2 = 0) := by
  obtain ⟨hfloor, hceil⟩ := floorMag_bounds hw v
  have hmono := (magValue_strictMono w).monotone
  have hside : magValue w p ≤ magValue w (floorMag w v) ∨ magValue w (floorMag w v + 1) ≤ magValue w p :=
    (Nat.lt_or_ge (floorMag w v) p).symm.imp (@hmono _ _) (@hmono _ _)
  obtain ⟨⟨hpack, hmid⟩ | ⟨hpack, hmid⟩, heven⟩ := packedMag_cases hw v
  · obtain ⟨hnear, htie⟩ := nearest_of_le_midpoint hfloor hceil.le hside hmid
    rw [hpack] at heven ⊢
    exact ⟨hnear, fun heq hne => heven (htie heq hne)⟩
  · obtain ⟨hnear, htie⟩ := nearest_of_midpoint_le hfloor hceil.le hside hmid
    rw [hpack] at heven ⊢
    exact ⟨hnear, fun heq hne => heven (htie heq hne)⟩

end

/-! ### The sign of a packed pattern (R71) -/

section
variable {w : NativeWidth} {mag : Nat} (s : Bool) (hmag : mag < 2 ^ (w.bits - 1))

theorem withSign_mod_two : w.withSign s mag % 2 = mag % 2 := by
  cases w <;> simp only [NativeWidth.withSign, NativeWidth.bits, Nat.shiftLeft_eq] <;> omega

include hmag

theorem nativeMag_withSign : nativeMag w (w.withSign s mag) = mag := by
  rw [nativeMag, NativeWidth.withSign, Nat.shiftLeft_eq, Nat.mul_add_mod_self_right, Nat.mod_eq_of_lt hmag]

theorem nativeSign_withSign : nativeSign w (w.withSign s mag) = s := by
  rw [nativeSign, bitField_eq, NativeWidth.withSign, Nat.shiftLeft_eq, Nat.mul_comm,
    Nat.mul_add_div (Nat.two_pow_pos _), Nat.div_eq_of_lt hmag]
  cases s <;> rfl

end

theorem NativeWidth.infMag_lt (w : NativeWidth) : w.infMag < 2 ^ (w.bits - 1) := by cases w <;> decide

/-! ### Packing a finite operand (R71 to R73) -/

section
variable {w : NativeWidth} (hw : w ≠ .w64) {v : Word} (hv : exp64 v ≠ 2047)
include hw hv

theorem pack_ovf_iff : (pack w v).ovf = true ↔ w.infMag ≤ packedMag w v := by
  rw [pack_of_narrow hw, packNarrow_of_finite hv, packFinite]
  split
  next h => simp [h]
  next h => simp [Nat.le_of_not_lt h]

theorem pack_pattern : (pack w v).pattern = w.withSign (sign64 v) (min (packedMag w v) w.infMag) := by
  rw [pack_of_narrow hw, packNarrow_of_finite hv, packFinite]
  split
  next h => rw [Nat.min_eq_left h.le]
  next h => rw [Nat.min_eq_right (Nat.le_of_not_lt h)]

end

/-! ### Nearness of signed values -/

theorem abs_signed_sub_signed (s : Bool) (x y : ℚ) : |signed s x - signed s y| = |x - y| := by
  cases s
  · rfl
  · simp only [signed, if_true, neg_sub_neg, abs_sub_comm]

theorem abs_signed_not_sub_signed (s : Bool) {z y : ℚ} (hz : 0 ≤ z) (hy : 0 ≤ y) :
    |signed (!s) z - signed s y| = z + y := by
  cases s
  · simp only [signed, Bool.not_false, if_true, Bool.false_eq_true, if_false]
    rw [abs_of_nonpos (by linarith)]
    ring
  · simp only [signed, Bool.not_true, if_true, Bool.false_eq_true, if_false]
    rw [abs_of_nonneg (by linarith)]
    ring

/-- A finite operand's packed value, of the operand's sign, is as near as any value of either sign: one of the other
sign is no nearer than 0, which is a value too. -/
theorem packedMag_nearest_signed {w : NativeWidth} (hw : w ≠ .w64) (v : Word) (s s' : Bool) (p : Nat) :
    let x := signed s (magValue w (packedMag w v))
    let y := signed s (operandMag v)
    let z := signed s' (magValue w p)
    |x - y| ≤ |z - y| ∧ (|x - y| = |z - y| → z ≠ x → packedMag w v % 2 = 0) := by
  dsimp only
  rw [abs_signed_sub_signed]
  by_cases hs : s' = s
  · subst hs
    obtain ⟨hnear, htie⟩ := packedMag_nearest hw v p
    rw [abs_signed_sub_signed]
    exact ⟨hnear, fun heq hne => htie heq fun h => hne (congrArg (signed s') h)⟩
  · obtain rfl : s' = !s := Bool.eq_not.2 hs
    have hy := operandMag_nonneg v
    have hz := magValue_nonneg w p
    obtain ⟨hnear, htie⟩ := packedMag_nearest hw v 0
    rw [magValue_zero, zero_sub, abs_neg, abs_of_nonneg hy] at hnear htie
    rw [abs_signed_not_sub_signed s hz hy]
    refine ⟨by linarith, fun heq hne => htie (by linarith) fun h => hne ?_⟩
    have hz0 : magValue w p = 0 := by linarith
    simp only [← h, hz0, signed, neg_zero, ite_self]

/-- Settles O34: at 64 bits the packed pattern has the operand's own value; at the narrower widths it is the nearer of
the operand's two neighbours, or the even one. -/
theorem packRoundsToNearestEven : Obligations.PackRoundsToNearestEven := by
  unfold Obligations.PackRoundsToNearestEven
  intro w v y hy hovf
  by_cases hw : w = .w64
  · subst hw
    refine ⟨y, hy, fun q z _ _ => ?_⟩
    rw [sub_self, abs_zero]
    exact ⟨abs_nonneg _, fun heq hne => absurd (sub_eq_zero.1 (abs_eq_zero.1 heq.symm)) hne⟩
  · obtain ⟨hfin, rfl⟩ := val64_eq_finite_iff.1 hy
    have hlt : packedMag w v < w.infMag := by
      rw [← Nat.not_le, ← pack_ovf_iff hw hfin, hovf]
      exact Bool.false_ne_true
    have hmag := hlt.trans w.infMag_lt
    have hpat : (pack w v).pattern = w.withSign (sign64 v) (packedMag w v) := by
      rw [pack_pattern hw hfin, Nat.min_eq_left hlt.le]
    rw [hpat, withSign_mod_two]
    refine ⟨signed (sign64 v) (magValue w (packedMag w v)), ?_, fun q z _ hz => ?_⟩
    · rw [valNative_eq_finite_iff, nativeMag_withSign _ hmag, nativeSign_withSign _ hmag]
      exact ⟨hlt, rfl⟩
    · obtain ⟨-, rfl⟩ := valNative_eq_finite_iff.1 hz
      exact packedMag_nearest_signed hw v _ _ _

/-! ### Overflow (R72, R73) -/

section
variable {w : NativeWidth} (hw : w ≠ .w64) (v : Word)
include hw

/-- Rounding passes an odd pattern from the midpoint above it on: the tie there goes to the even pattern. -/
theorem lt_packedMag_iff {p : Nat} (hp : p % 2 = 1) : p < packedMag w v ↔ midpointAbove w p ≤ operandMag v := by
  obtain ⟨hfloor, hceil⟩ := floorMag_bounds hw v
  have hmono := (magValue_strictMono w).monotone
  obtain hlt | rfl | hgt := Nat.lt_trichotomy p (floorMag w v)
  · have hpack : p < packedMag w v := by
      obtain ⟨⟨hpack, -⟩ | ⟨hpack, -⟩, -⟩ := packedMag_cases hw v <;> omega
    exact iff_of_true hpack ((midpointAbove_bounds w p).2.trans ((hmono hlt).trans hfloor))
  · obtain ⟨⟨hpack, hmid⟩ | ⟨hpack, hmid⟩, heven⟩ := packedMag_cases hw v
    · refine iff_of_false (by omega) fun hle => ?_
      have := heven (le_antisymm hmid hle)
      omega
    · exact iff_of_true (by omega) hmid
  · have hpack : ¬ p < packedMag w v := by
      obtain ⟨⟨hpack, -⟩ | ⟨hpack, -⟩, -⟩ := packedMag_cases hw v <;> omega
    exact iff_of_false hpack (not_le.2 (hceil.trans_le ((hmono hgt).trans (midpointAbove_bounds w p).1)))

/-- Rounding does not go below a pattern's value. -/
theorem le_packedMag {p : Nat} (hp : magValue w p ≤ operandMag v) : p ≤ packedMag w v := by
  have hfloor : p < floorMag w v + 1 := (magValue_strictMono w).lt_iff_lt.1 (hp.trans_lt (floorMag_bounds hw v).2)
  obtain ⟨⟨hpack, -⟩ | ⟨hpack, -⟩, -⟩ := packedMag_cases hw v <;> omega

end

/-- The largest finite half value, half a quantum below the threshold (R72). -/
theorem magValue_half_max : magValue .w16 0x7BFF = 65504 := by
  norm_num [magValue, NativeWidth.mwn, NativeWidth.biasn]

theorem midpointAbove_half_max : midpointAbove .w16 0x7BFF = 65520 := by
  norm_num [midpointAbove, magValue, NativeWidth.mwn, NativeWidth.biasn]

theorem midpointAbove_single_max : midpointAbove .w32 0x7F7FFFFF = (2 - 2 ^ (-24 : Int)) * 2 ^ (127 : Int) := by
  norm_num [midpointAbove, magValue, NativeWidth.mwn, NativeWidth.biasn]

/-- Settles O35: the largest finite half pattern, 0x7BFF, is odd, so rounding passes it from the midpoint 65520 on. -/
theorem halfOverflow : Obligations.HalfOverflow := by
  unfold Obligations.HalfOverflow
  intro v y hy
  obtain ⟨hfin, rfl⟩ := val64_eq_finite_iff.1 hy
  rw [abs_signed _ (operandMag_nonneg v)]
  have hw : NativeWidth.w16 ≠ .w64 := by decide
  have hinf : NativeWidth.infMag .w16 = 0x7BFF + 1 := rfl
  have hthreshold : NativeWidth.infMag .w16 ≤ packedMag .w16 v ↔ 65520 ≤ operandMag v := by
    rw [hinf, Nat.succ_le_iff, lt_packedMag_iff hw v (by decide), midpointAbove_half_max]
  refine ⟨(pack_ovf_iff hw hfin).trans hthreshold, fun hle => ?_, fun hlow hhigh => ?_⟩
  · rw [pack_pattern hw hfin, Nat.min_eq_right (hthreshold.2 hle)]
    cases sign64 v <;> rfl
  · have hlower : 0x7BFF ≤ packedMag .w16 v := le_packedMag hw v (magValue_half_max.trans_le hlow.le)
    have hupper : packedMag .w16 v < NativeWidth.infMag .w16 := Nat.lt_of_not_le (mt hthreshold.1 (not_le.2 hhigh))
    have hmag : packedMag .w16 v = 0x7BFF := by omega
    rw [pack_pattern hw hfin, Nat.min_eq_left hupper.le, hmag]
    cases sign64 v <;> rfl

/-- Settles O36: the largest finite single pattern is odd as well. -/
theorem singleOverflow : Obligations.SingleOverflow := by
  unfold Obligations.SingleOverflow
  refine ⟨fun v y hy => ?_, fun v => rfl⟩
  obtain ⟨hfin, rfl⟩ := val64_eq_finite_iff.1 hy
  rw [abs_signed _ (operandMag_nonneg v)]
  have hw : NativeWidth.w32 ≠ .w64 := by decide
  have hinf : NativeWidth.infMag .w32 = 0x7F7FFFFF + 1 := rfl
  refine ⟨?_, fun hovf => ?_⟩
  · rw [pack_ovf_iff hw hfin, hinf, Nat.succ_le_iff, lt_packedMag_iff hw v (by decide), midpointAbove_single_max]
  · rw [pack_pattern hw hfin, Nat.min_eq_right ((pack_ovf_iff hw hfin).1 hovf)]
    cases sign64 v <;> rfl

/-! ### The overflow flag (R74, R114) -/

theorem statusOVF_resultStatus (ovf : Bool) : statusOVF (statusWord true 0 ovf) = ovf := by cases ovf <;> decide

/-- The flag tells a finite operand that packs to an infinity from every other operand. -/
theorem pack_ovf_iff_infinity (w : NativeWidth) (v : Word) :
    (pack w v).ovf = true ↔ exp64 v ≠ 2047 ∧ nativeMag w (pack w v).pattern = w.infMag := by
  by_cases hw : w = .w64
  · subst hw
    rw [← nativeMag_lt_infMag_iff]
    exact iff_of_false Bool.false_ne_true fun ⟨hlt, heq⟩ => hlt.ne heq
  by_cases hv : exp64 v = 2047
  · rw [pack_of_narrow hw, packNarrow_of_infinite hv]
    exact iff_of_false Bool.false_ne_true fun h => h.1 hv
  · have hmag : min (packedMag w v) w.infMag < 2 ^ (w.bits - 1) := (Nat.min_le_right _ _).trans_lt w.infMag_lt
    rw [pack_ovf_iff hw hv, pack_pattern hw hv, nativeMag_withSign _ hmag, min_eq_right_iff]
    exact (and_iff_right hv).symm

@[simp] theorem exec_decode (slot : Nat) (s : State) : exec (.decode slot) s = execDecode slot s := rfl

/-- The success path of `DECODE`, with the pipeline's result named. -/
theorem exec_decode_of_value {s : State} {slot : Nat} {d : Descriptor} {v : Word} {r : DecodedFloat}
    (hd : s.descriptor? slot = some d) (hopa : s.opa = v) (hnan : isNaN64 v = false) (hr : decodeValue d v = r) :
    exec (.decode slot) s =
      .next ((s.clearResults.writeDecoded r).setStatus (statusWord true 0 r.ovf)) := by
  subst hopa hr
  rw [exec_decode, execDecode_success hd hnan]

/-- Settles O37: `STATUS.OVF` is the flag of the packing. -/
theorem overflowFlagMeaning : Obligations.OverflowFlagMeaning := by
  unfold Obligations.OverflowFlagMeaning
  intro s slot d hd hnan
  refine ⟨_, exec_decode_of_value hd rfl hnan rfl, ?_⟩
  rw [State.setStatus_status, statusOVF_resultStatus, valNative_eq_infinity_iff, isFinite64, decide_eq_true_iff]
  exact pack_ovf_iff_infinity d.width s.opa

/-! ### Truncation (R75, R76) -/

/-- A slice of a shifted number is a slice further up. -/
theorem bitField_shiftRight (p k lo width : Nat) : bitField (p >>> k) lo width = bitField p (k + lo) width := by
  rw [bitField, bitField, Nat.shiftRight_add]

/-- The leading part of a slice is the slice without its low bits. -/
theorem bitField_add_width (p lo k width : Nat) : bitField p lo (k + width) >>> k = bitField p (lo + k) width := by
  rw [bitField_eq, bitField_eq, Nat.shiftRight_eq_div_pow, Nat.pow_add, Nat.pow_add, Nat.mod_mul_right_div_self,
    Nat.div_div_eq_div_mul]

/-- Settles O38: the sequence loses its low `W - T` bits, which all lie in the mantissa field. -/
theorem truncationKeepsExponentField : Obligations.TruncationKeepsExponentField := by
  unfold Obligations.TruncationKeepsExponentField
  intro d v hvalid htp
  simp only [Descriptor.valid, htp, Bool.not_true, Bool.false_or, Bool.and_eq_true, decide_eq_true_eq] at hvalid
  obtain ⟨hsum, hlow, hhigh⟩ := hvalid
  simp only [seqSign, seqExp, seqMan, Descriptor.keptMan, extracted, truncate, Descriptor.seqLen, htp, if_true,
    Bool.false_eq_true, if_false, Nat.sub_self, Nat.shiftRight_zero, bitField_shiftRight]
  refine ⟨?_, ?_, ?_⟩
  · congr 1; omega
  · congr 1; omega
  · rw [show d.width.bits - 1 - d.ew.toNat = (d.width.bits - d.t.toNat) + (d.t.toNat - 1 - d.ew.toNat) by omega,
      bitField_add_width, Nat.zero_add, Nat.add_zero]

/-! ### Truncation into the native exponent field (log 10) -/

theorem decodeValue_xm2_one : decodeValue ExampleSet.xm2 0x3FF0000000000000 =
    { sign := 0, expBits := 0, manBits := 0, ew := 0, km := 1, len := 2, nativeBits := 16
      cls := { cat := .zero, impl := some false, texp := none }
      stored := 0, error := 0x3FF0000000000000, ovf := false } := by decide +kernel

theorem decodeValue_xm2_two : decodeValue ExampleSet.xm2 0x4000000000000000 =
    { sign := 0, expBits := 0, manBits := 1, ew := 0, km := 1, len := 2, nativeBits := 16
      cls := { cat := .subnormal, impl := some false, texp := some 1 }
      stored := 0x4000000000000000, error := 0, ovf := false } := by decide +kernel

theorem decodeValue_xm2_plusInf : decodeValue ExampleSet.xm2 0x7FF0000000000000 =
    { sign := 0, expBits := 0, manBits := 1, ew := 0, km := 1, len := 2, nativeBits := 16
      cls := { cat := .subnormal, impl := some false, texp := some 1 }
      stored := 0x4000000000000000, error := 0x7FF0000000000000, ovf := false } := by decide +kernel

/-- Settles O59: the pipeline evaluated on the three operands. -/
theorem truncationIntoExponentField : Obligations.TruncationIntoExponentField := by
  unfold Obligations.TruncationIntoExponentField
  intro s slot hd
  refine ⟨fun hopa => ?_, fun hopa => ?_, fun hopa => ?_⟩
  · rw [exec_decode_of_value hd hopa (by decide) decodeValue_xm2_one]
    rfl
  · rw [exec_decode_of_value hd hopa (by decide) decodeValue_xm2_two]
    rfl
  · exact ⟨_, exec_decode_of_value hd hopa (by decide) decodeValue_xm2_plusInf, rfl, rfl, rfl⟩

end Sys2Proof.Machine

/-! ## The ValueReconstructor (42_value_reconstructor.md): exact reconstruction, and what truncation does to a value -/

namespace Sys2Proof.Machine

/-! ### The binary64 pattern of a sign and a magnitude (R43, R44)

The value alone does not say the sign of a zero, so the sign stands beside the magnitude. -/

/-- `v` is the finite binary64 pattern of sign `s` and magnitude `x`. -/
structure FinitePattern (v : Word) (s : Bool) (x : ℚ) : Prop where
  sign : sign64 v = s
  exp : exp64 v ≠ 2047
  mag : operandMag v = x

theorem FinitePattern.val64_eq {v : Word} {s : Bool} {x : ℚ} (h : FinitePattern v s x) :
    val64 v = some (.finite (signed s x)) :=
  val64_eq_finite_iff.2 ⟨h.exp, by rw [h.sign, h.mag]⟩

theorem finitePattern_mk64 (s : Bool) {e f : Nat} (he : e < 2047) (hf : f < 2 ^ 52) :
    FinitePattern (mk64 s e f) s (magValue .w64 (e * 2 ^ 52 + f)) := by
  obtain ⟨hsign, hexp, -⟩ := mk64_fields (s := s) (by omega : e < 2048) hf
  have hmag : nativeMag .w64 (mk64 s e f).toNat = e * 2 ^ 52 + f := by
    rw [nativeMag, NativeWidth.bits, toNat_mk64 (by omega) hf]
    omega
  exact ⟨hsign, by omega, by rw [← magValue_toNat, hmag]⟩

/-- The zero of a sign. -/
theorem finitePattern_zero (s : Bool) : FinitePattern (mk64 s 0 0) s 0 :=
  magValue_zero .w64 ▸ finitePattern_mk64 s (by decide) (by decide)

/-- An integer significand `m` with leading bit `j`, left-aligned below the implicit bit, has the magnitude
`m × 2^q` when the exponent field is the biased exponent of that leading bit. -/
theorem finitePattern_leftAligned (s : Bool) {m j e : Nat} {q : Int} (hlow : 2 ^ j ≤ m) (hhigh : m < 2 ^ (j + 1))
    (hj : j ≤ 52) (he : (e : Int) = q + j + 1023) (hmin : 1 ≤ e) (hmax : e < 2047) :
    FinitePattern (mk64 s e ((m - 2 ^ j) <<< (52 - j))) s (m * 2 ^ q) := by
  obtain ⟨i, rfl⟩ := Nat.exists_eq_add_of_le hlow
  have hi : i < 2 ^ j := by rw [pow_succ] at hhigh; omega
  have hone : 2 ^ j * 2 ^ (52 - j) = 2 ^ 52 := by rw [← pow_add, Nat.add_sub_cancel' hj]
  have hf : i * 2 ^ (52 - j) < 2 ^ 52 := hone ▸ Nat.mul_lt_mul_of_pos_right hi (Nat.two_pow_pos _)
  have hscale : (2 : ℚ) ^ q = 2 ^ (52 - j) * 2 ^ ((e : Int) - 1023 - 52) := by
    rw [← zpow_natCast, ← zpow_add₀ two_ne_zero]
    congr 1
    push_cast [hj]
    omega
  have hmag : magValue .w64 (e * 2 ^ 52 + i * 2 ^ (52 - j)) = (2 ^ j + i : Nat) * 2 ^ q :=
    calc magValue .w64 (e * 2 ^ 52 + i * 2 ^ (52 - j))
      _ = (2 ^ 52 + (i * 2 ^ (52 - j) : Nat)) * 2 ^ ((e : Int) - 1023 - 52) := magValue_of_binade hmin hf.le
      _ = ((2 ^ j + i) * 2 ^ (52 - j) : Nat) * 2 ^ ((e : Int) - 1023 - 52) := by rw [Nat.add_mul, hone]; norm_cast
      _ = (2 ^ j + i : Nat) * 2 ^ q := by rw [hscale]; push_cast; ring
  rw [Nat.add_sub_cancel_left, Nat.shiftLeft_eq, ← hmag]
  exact finitePattern_mk64 s hmax hf

/-! ### Unpacking a native pattern (R84 to R86) -/

/-- Every native exponent field below all ones has a binary64 exponent field below all ones. -/
theorem NativeWidth.rebias_bounds (w : NativeWidth) :
    w.biasn ≤ 1023 ∧ ones w.ewn ≤ w.biasn + 1024 ∧ w.mwn ≤ 52 := by cases w <;> decide

theorem unpackNormal_finitePattern (w : NativeWidth) (s : Bool) {en mn : Nat} (hpos : 1 ≤ en) (hen : en < ones w.ewn)
    (hmn : mn < 2 ^ w.mwn) :
    FinitePattern (unpackNormal w s en mn) s (magValue w (en * 2 ^ w.mwn + mn)) := by
  obtain ⟨hbias, hones, hmwn⟩ := w.rebias_bounds
  have h := finitePattern_leftAligned s (m := 2 ^ w.mwn + mn) (j := w.mwn) (e := en + 1023 - w.biasn)
    (q := en - w.biasn - w.mwn) (by omega) (by rw [pow_succ]; omega) hmwn (by omega) (by omega) (by omega)
  rw [Nat.add_sub_cancel_left] at h
  rw [magValue_of_binade hpos hmn.le]
  exact_mod_cast h

theorem unpackSubnormal_finitePattern {w : NativeWidth} (hw : w ≠ .w64) (s : Bool) {mn : Nat} (hpos : 0 < mn)
    (hmn : mn < 2 ^ w.mwn) : FinitePattern (unpackSubnormal w s mn) s (magValue w mn) := by
  obtain ⟨hmwn, hemin⟩ := NativeWidth.narrow_bounds hw
  obtain ⟨hlow, hhigh, hlen⟩ := bitlen_bounds hpos
  have hle : bitlen mn ≤ w.mwn := (bitlen_le_iff _ _).2 hmn
  rw [NativeWidth.emin] at hemin
  have hexp : (subnormalExp64 w mn : Int) = (1 - w.biasn - w.mwn) + (bitlen mn - 1 : Nat) + 1023 := by
    rw [subnormalExp64]
    omega
  rw [magValue_of_le hmn.le, NativeWidth.emin]
  exact finitePattern_leftAligned s hlow (by rwa [Nat.sub_add_cancel hlen]) (by omega) hexp (by omega) (by omega)

/-- `unpack` at 16 and 32 bits, in the sign and the magnitude of the pattern. -/
theorem unpack_of_narrow {w : NativeWidth} (hw : w ≠ .w64) (p : Nat) : unpack w p =
    if nativeMag w p / 2 ^ w.mwn = ones w.ewn then mk64 (nativeSign w p) 2047 0
    else if nativeMag w p / 2 ^ w.mwn = 0 then
      if nativeMag w p % 2 ^ w.mwn = 0 then mk64 (nativeSign w p) 0 0
      else unpackSubnormal w (nativeSign w p) (nativeMag w p % 2 ^ w.mwn)
    else unpackNormal w (nativeSign w p) (nativeMag w p / 2 ^ w.mwn) (nativeMag w p % 2 ^ w.mwn) := by
  rw [← bitField_exp_eq, ← bitField_man_eq]
  cases w with
  | w64 => exact absurd rfl hw
  | _ => rfl

/-- Unpacking a finite native pattern keeps its sign and its magnitude (R85, R86). -/
theorem unpack_finitePattern {w : NativeWidth} {p : Nat} (hp : p < 2 ^ w.bits) (hfin : nativeMag w p < w.infMag) :
    FinitePattern (unpack w p) (nativeSign w p) (magValue w (nativeMag w p)) := by
  by_cases hw : w = .w64
  · subst hw
    have htoNat : (unpack .w64 p).toNat = p := (BitVec.toNat_ofNat p 64).trans (Nat.mod_eq_of_lt hp)
    refine ⟨?_, ?_, ?_⟩
    · rw [← nativeSign_toNat, htoNat]
    · rwa [← nativeMag_lt_infMag_iff, htoNat]
    · rw [← magValue_toNat, htoNat]
  have hexp : nativeMag w p / 2 ^ w.mwn < ones w.ewn := (lt_infMag_iff w _).1 hfin
  have hman : nativeMag w p % 2 ^ w.mwn < 2 ^ w.mwn := Nat.mod_lt _ (Nat.two_pow_pos _)
  have hsplit : nativeMag w p / 2 ^ w.mwn * 2 ^ w.mwn + nativeMag w p % 2 ^ w.mwn = nativeMag w p :=
    Nat.div_add_mod' _ _
  rw [unpack_of_narrow hw, if_neg hexp.ne]
  generalize nativeMag w p / 2 ^ w.mwn = en at *
  generalize nativeMag w p % 2 ^ w.mwn = mn at *
  rw [← hsplit]
  split_ifs with hen hmn
  · rw [hen, hmn, Nat.zero_mul, magValue_zero]
    exact finitePattern_zero _
  · rw [hen, Nat.zero_mul, Nat.zero_add]
    exact unpackSubnormal_finitePattern hw _ (Nat.pos_of_ne_zero hmn) hman
  · exact unpackNormal_finitePattern w _ (Nat.pos_of_ne_zero hen) hexp hman

/-- A native pattern is its sign bit above its magnitude (R41). -/
theorem withSign_nativeSign_nativeMag {w : NativeWidth} {p : Nat} (hp : p < 2 ^ w.bits) :
    w.withSign (nativeSign w p) (nativeMag w p) = p := by
  have htop : p / 2 ^ (w.bits - 1) < 2 := by
    rw [Nat.div_lt_iff_lt_mul (Nat.two_pow_pos _)]
    cases w <;> exact hp
  have hbit : bit (nativeSign w p) = p / 2 ^ (w.bits - 1) := by
    rw [nativeSign, bitField_eq, pow_one, Nat.mod_eq_of_lt htop]
    generalize p / 2 ^ (w.bits - 1) = b at htop
    interval_cases b <;> rfl
  rw [NativeWidth.withSign, hbit, Nat.shiftLeft_eq, nativeMag, Nat.div_add_mod']

/-- Unpacking a native infinity gives the binary64 infinity of its sign (R84). -/
theorem unpack_of_infinite {w : NativeWidth} {p : Nat} (hp : p < 2 ^ w.bits) (hinf : nativeMag w p = w.infMag) :
    unpack w p = mk64 (nativeSign w p) 2047 0 := by
  by_cases hw : w = .w64
  · subst hw
    conv_lhs => rw [← withSign_nativeSign_nativeMag hp, hinf]
    cases nativeSign .w64 p <;> rfl
  · have hexp : w.infMag / 2 ^ w.mwn = ones w.ewn := by
      rw [NativeWidth.infMag, Nat.shiftLeft_eq, Nat.mul_div_cancel _ (Nat.two_pow_pos _)]
    rw [unpack_of_narrow hw, hinf, if_pos hexp]

theorem val64_infinity (s : Bool) : val64 (mk64 s 2047 0) = some (if s then .minusInf else .plusInf) := by
  have hsign : nativeSign .w64 (mk64 s 2047 0).toNat = s :=
    (nativeSign_toNat _).trans (mk64_fields (by decide) (by decide)).1
  have hmag : nativeMag .w64 (mk64 s 2047 0).toNat = NativeWidth.infMag .w64 := by cases s <;> rfl
  have h := valNative_eq .w64 (mk64 s 2047 0).toNat
  rwa [hmag, if_neg (lt_irrefl _), if_pos rfl, hsign] at h

/-- Settles O42: a pattern with a value is finite or an infinity. -/
theorem reconstructionIsExact : Obligations.ReconstructionIsExact := by
  unfold Obligations.ReconstructionIsExact
  intro w p hp hval
  rw [valNative_eq] at hval ⊢
  by_cases hfin : nativeMag w p < w.infMag
  · rw [if_pos hfin, (unpack_finitePattern hp hfin).val64_eq]
  by_cases hinf : nativeMag w p = w.infMag
  · rw [if_neg hfin, if_pos hinf, unpack_of_infinite hp hinf, val64_infinity]
  · rw [if_neg hfin, if_neg hinf] at hval
    exact absurd rfl hval

/-! ### Truncating and padding a native pattern (R75, R82, R83) -/

/-- What `storedValue` reads of a descriptor (R83). -/
theorem storedValue_congr {d d' : Descriptor} (hwidth : d.width = d'.width) (htp : d.tp = d'.tp) (ht : d.t = d'.t)
    (v : Word) : storedValue d v = storedValue d' v := by
  simp only [storedValue, extracted, pad, truncate, Descriptor.seqLen, hwidth, htp, ht]

/-- Settles O43: the stored value reads `TW`, `TP` and `T` of a descriptor, and shifting down and up again clears the
low bits. -/
theorem storedValueDependencies : Obligations.StoredValueDependencies := by
  unfold Obligations.StoredValueDependencies
  refine ⟨fun d d' v hwidth htp ht => storedValue_congr hwidth htp ht v, fun d p _ _ => ?_⟩
  rw [pad_truncate, Nat.div_mul_self_eq_mod_sub_self]

/-- The extracted sequence of a valid descriptor holds the sign bit (R56, R75). -/
theorem Descriptor.one_le_seqLen {d : Descriptor} (hd : d.valid = true) : 1 ≤ d.seqLen := by
  simp only [Descriptor.valid, Bool.and_eq_true, decide_eq_true_eq] at hd
  obtain ⟨hsum, hrange⟩ := hd
  rw [Descriptor.seqLen]
  split_ifs with htp
  · simp only [htp, Bool.not_true, Bool.false_or, Bool.and_eq_true, decide_eq_true_eq] at hrange
    omega
  · omega

theorem Descriptor.dropped_le {d : Descriptor} (hd : d.valid = true) : d.width.bits - d.seqLen ≤ d.width.bits - 1 :=
  Nat.sub_le_sub_left (Descriptor.one_le_seqLen hd) _

theorem nativeSign_pad_truncate {d : Descriptor} (hd : d.valid = true) (p : Nat) :
    nativeSign d.width (pad d (truncate d p)) = nativeSign d.width p := by
  obtain ⟨j, hj⟩ := Nat.exists_eq_add_of_le (Descriptor.dropped_le hd)
  rw [nativeSign, nativeSign, bitField_eq, bitField_eq, pad_truncate, hj, Nat.pow_add, ← Nat.div_div_eq_div_mul,
    ← Nat.div_div_eq_div_mul, Nat.mul_div_cancel _ (Nat.two_pow_pos _)]

theorem nativeMag_pad_truncate_le (d : Descriptor) (p : Nat) :
    nativeMag d.width (pad d (truncate d p)) ≤ nativeMag d.width p := pad_truncate_mod_le d p

/-! ### The stored value by the packed pattern (R83) -/

theorem nativeSign_pack (w : NativeWidth) (v : Word) : nativeSign w (pack w v).pattern = sign64 v := by
  by_cases hw : w = .w64
  · subst hw
    exact nativeSign_toNat v
  · obtain ⟨mag, hle, hpattern⟩ := packNarrow_shape w v
    rw [pack_of_narrow hw, hpattern, nativeSign_withSign _ (hle.trans_lt w.infMag_lt)]

theorem padded_lt (d : Descriptor) {v : Word} (hv : isNaN64 v = false) : pad d (extracted d v) < 2 ^ d.width.bits :=
  (pad_truncate_le d _).trans_lt (pack_bounds d.width hv).1

/-- Settles O44: clearing low bits keeps the sign bit and lowers the magnitude pattern, and unpacking keeps both. -/
theorem storedMagnitudeNeverGrows : Obligations.StoredMagnitudeNeverGrows := by
  unfold Obligations.StoredMagnitudeNeverGrows
  intro d v x hd hv hx
  obtain ⟨hfin, rfl⟩ := valNative_eq_finite_iff.1 hx
  have hle := nativeMag_pad_truncate_le d (pack d.width v).pattern
  have hstored := unpack_finitePattern (padded_lt d hv) (hle.trans_lt hfin)
  refine ⟨_, hstored.val64_eq, ?_, ?_⟩
  · rw [abs_signed _ (magValue_nonneg _ _), abs_signed _ (magValue_nonneg _ _)]
    exact (magValue_strictMono d.width).monotone hle
  · exact hstored.sign.trans ((nativeSign_pad_truncate hd _).trans (nativeSign_pack d.width v))

/-! ### Infinities (R74, R84, R103) -/

/-- A descriptor that keeps the native exponent field drops mantissa bits only. -/
theorem Descriptor.dropped_le_mwn {d : Descriptor} (hkeep : d.keepsNativeExp = true) :
    d.width.bits - d.seqLen ≤ d.width.mwn := by
  have hbits := d.width.bits_eq
  rw [Descriptor.keepsNativeExp] at hkeep
  rw [Descriptor.seqLen]
  split_ifs with htp
  · simp only [htp, Bool.not_true, Bool.false_or, decide_eq_true_eq] at hkeep
    omega
  · omega

/-- The infinity's magnitude has no mantissa bit to lose (R74). -/
theorem nativeMag_pad_truncate_of_infinite {d : Descriptor} (hd : d.valid = true) (hkeep : d.keepsNativeExp = true)
    {p : Nat} (hinf : nativeMag d.width p = d.width.infMag) :
    nativeMag d.width (pad d (truncate d p)) = d.width.infMag := by
  have hdvd : 2 ^ (d.width.bits - d.seqLen) ∣ d.width.infMag := by
    rw [NativeWidth.infMag, Nat.shiftLeft_eq]
    exact (pow_dvd_pow 2 (Descriptor.dropped_le_mwn hkeep)).mul_left _
  rw [nativeMag, pad_truncate, clear_low_mod _ _ _ (Descriptor.dropped_le hd), ← nativeMag, hinf,
    Nat.div_mul_cancel hdvd]

theorem storedValue_of_infinite {d : Descriptor} (hd : d.valid = true) (hkeep : d.keepsNativeExp = true) {v : Word}
    (hv : isNaN64 v = false) (hinf : nativeMag d.width (pack d.width v).pattern = d.width.infMag) :
    storedValue d v = mk64 (sign64 v) 2047 0 := by
  have hpadded := nativeMag_pad_truncate_of_infinite hd hkeep hinf
  have hsign := (nativeSign_pad_truncate hd (pack d.width v).pattern).trans (nativeSign_pack d.width v)
  rw [← hsign]
  exact unpack_of_infinite (padded_lt d hv) hpadded

theorem isInf64_iff {v : Word} (hv : isNaN64 v = false) : isInf64 v = true ↔ exp64 v = 2047 := by
  simp only [isNaN64, isInf64, Bool.and_eq_false_iff, Bool.and_eq_true, decide_eq_true_eq,
    decide_eq_false_iff_not] at hv ⊢
  omega

/-- An infinite operand packs to an infinity (R67, R68). -/
theorem nativeMag_pack_of_infinite (w : NativeWidth) {v : Word} (hv : isNaN64 v = false) (hexp : exp64 v = 2047) :
    nativeMag w (pack w v).pattern = w.infMag := by
  by_cases hw : w = .w64
  · subst hw
    have hle : nativeMag .w64 v.toNat ≤ NativeWidth.infMag .w64 := (isNaN64_eq_false_iff v).1 hv
    exact hle.antisymm (not_lt.1 fun hlt => (nativeMag_lt_infMag_iff v).1 hlt hexp)
  · rw [pack_of_narrow hw, packNarrow_of_infinite hexp, nativeMag_withSign _ w.infMag_lt]

/-- Settles O58: infinite and overflowing operands are the ones that pack to an infinity, and the flag tells them
apart. -/
theorem infinityIsStoredAsInfinity : Obligations.InfinityIsStoredAsInfinity := by
  unfold Obligations.InfinityIsStoredAsInfinity
  intro s slot d hslot hd hkeep hop hv
  have hpacked : nativeMag d.width (pack d.width s.opa).pattern = d.width.infMag := by
    obtain hinf | hovf := hop
    · exact nativeMag_pack_of_infinite _ hv ((isInf64_iff hv).1 hinf)
    · exact ((pack_ovf_iff_infinity _ _).1 hovf).2
  have hstored := storedValue_of_infinite hd hkeep hv hpacked
  have hstoredInf : isInf64 (storedValue d s.opa) = true := by
    rw [hstored]
    cases sign64 s.opa <;> decide
  refine ⟨_, exec_decode_of_value hslot rfl hv rfl, ?_, ?_, ?_⟩
  · refine hstored.trans ?_
    cases sign64 s.opa <;> rfl
  · exact absError_of_infinite (by rw [hstoredInf, Bool.true_or])
  · rw [State.setStatus_status, statusOVF_resultStatus, ← Bool.not_eq_true, isInf64_iff hv]
    exact (pack_ovf_iff_infinity _ _).trans (and_iff_left hpacked)

end Sys2Proof.Machine

/-! ## The Classifier (43_classifier.md): its categories, the `CLASSIFY` command, and the category and true exponent of
a `DECODE` -/

namespace Sys2Proof.Machine

/-! ### The five rules, one equation each (R89, R94) -/

theorem classify_zero (ew : Nat) (bias : Int) :
    classify 0 0 ew bias = { cat := .zero, impl := some false, texp := none } := rfl

section
variable {e m ew : Nat}

theorem classify_subnormal (hm : m ≠ 0) (ew : Nat) (bias : Int) :
    classify 0 m ew bias = { cat := .subnormal, impl := some false, texp := some (1 - bias) } := by
  rw [classify, if_neg (fun h => hm h.2), if_pos rfl]

theorem classify_normal (he : e ≠ 0) (hlt : e < emax ew) (m : Nat) (bias : Int) :
    classify e m ew bias = { cat := .normal, impl := some true, texp := some (e - bias) } := by
  rw [classify, if_neg (fun h => he h.1), if_neg he, if_pos hlt]

theorem classify_infinity (he : e ≠ 0) (hge : emax ew ≤ e) (bias : Int) :
    classify e 0 ew bias = { cat := .infinity, impl := none, texp := none } := by
  rw [classify, if_neg (fun h => he h.1), if_neg he, if_neg (Nat.not_lt_of_le hge), if_pos rfl]

theorem classify_nan (he : e ≠ 0) (hge : emax ew ≤ e) (hm : m ≠ 0) (bias : Int) :
    classify e m ew bias = { cat := .nan, impl := none, texp := none } := by
  rw [classify, if_neg (fun h => he h.1), if_neg he, if_neg (Nat.not_lt_of_le hge), if_neg hm]

end

/-! ### Small exponent widths (R97) -/

theorem emax_one : emax 1 = 1 := rfl

theorem one_lt_emax {ew : Nat} (h : 2 ≤ ew) : 1 < emax ew := by
  have hpow : 2 ^ 2 ≤ 2 ^ ew := Nat.pow_le_pow_right (by decide) h
  rw [emax]
  omega

theorem emax_lt (ew : Nat) : emax ew < 2 ^ ew := Nat.sub_lt (Nat.two_pow_pos ew) Nat.one_pos

/-- With an exponent width of 2 or more there is room for a field strictly between 0 and `EMAX`, so every rule applies
to some fields. -/
theorem exists_fields_of_category {ew : Nat} (hew : 2 ≤ ew) (bias : Int) (c : Category) :
    ∃ e m, e < 2 ^ ew ∧ (classify e m ew bias).cat = c := by
  have hmax := one_lt_emax hew
  have hlt := emax_lt ew
  have hne : emax ew ≠ 0 := by omega
  cases c with
  | zero => exact ⟨0, 0, by omega, by rw [classify_zero]⟩
  | subnormal => exact ⟨0, 1, by omega, by rw [classify_subnormal one_ne_zero]⟩
  | normal => exact ⟨1, 0, by omega, by rw [classify_normal one_ne_zero hmax]⟩
  | infinity => exact ⟨emax ew, 0, hlt, by rw [classify_infinity hne le_rfl]⟩
  | nan => exact ⟨emax ew, 1, hlt, by rw [classify_nan hne le_rfl one_ne_zero]⟩

/-- Settles O28: with width 0 the only field is 0, with width 1 there is none strictly between 0 and `EMAX`. -/
theorem smallExponentWidths : Obligations.SmallExponentWidths := by
  unfold Obligations.SmallExponentWidths
  refine ⟨fun m bias => ?_, fun e m bias he => ?_, fun ew bias hew c => exists_fields_of_category hew bias c⟩
  · split_ifs with hm
    · rw [hm, classify_zero]
    · exact classify_subnormal hm 0 bias
  · have hge : e ≠ 0 → emax 1 ≤ e := fun h => emax_one ▸ Nat.pos_of_ne_zero h
    split_ifs with hzero hm hm
    · rw [hzero, hm, classify_zero]
    · rw [hzero, classify_subnormal hm]
    · rw [hm, classify_infinity hzero (hge hzero)]
    · rw [classify_nan hzero (hge hzero) hm]

/-! ### `RCLS` and `RTEXP` of a classification (R24, R25) -/

theorem Category.code_lt (k : Category) : k.code < 8 := by cases k <;> decide

theorem Category.code_inj {k k' : Category} : k.code = k'.code ↔ k = k' := by cases k <;> cases k' <;> decide

/-- `RCLS.CAT` tells the category. -/
theorem rclsCAT_rclsWord_eq_iff (c : Classification) (k : Category) :
    rclsCAT (rclsWord c) = BitVec.ofNat 3 k.code ↔ c.cat = k := by
  have hcode : (rclsCAT (rclsWord c)).toNat = c.cat.code := by
    have := c.cat.code_lt
    have := bit_le_one (c.impl.getD false)
    have := bit_le_one c.impl.isSome
    have := bit_le_one c.texp.isSome
    simp only [rclsCAT, rclsWord, BitVec.extractLsb'_toNat, BitVec.toNat_ofNat, Nat.shiftLeft_eq, Nat.shiftRight_zero]
    omega
  rw [← Category.code_inj, ← BitVec.toNat_inj, hcode, BitVec.toNat_ofNat, Nat.mod_eq_of_lt k.code_lt]

section
variable {e m ew : Nat} {bias : Int}

theorem rtexpWord_of_subnormal (h : rclsCAT (rclsWord (classify e m ew bias)) = 2) :
    rtexpWord (classify e m ew bias) = twos64 (1 - bias) := by
  have hcat := (rclsCAT_rclsWord_eq_iff _ .subnormal).1 h
  obtain ⟨hc, -⟩ | ⟨hc, -⟩ | ⟨hc, -⟩ | ⟨hc, -⟩ | ⟨hc, -⟩ := classify_cases e m ew bias <;> rw [hc] at hcat ⊢
  case inr.inl => rfl
  all_goals cases hcat

theorem rtexpWord_of_normal (h : rclsCAT (rclsWord (classify e m ew bias)) = 3) :
    rtexpWord (classify e m ew bias) = twos64 (e - bias) := by
  have hcat := (rclsCAT_rclsWord_eq_iff _ .normal).1 h
  obtain ⟨hc, -⟩ | ⟨hc, -⟩ | ⟨hc, -⟩ | ⟨hc, -⟩ | ⟨hc, -⟩ := classify_cases e m ew bias <;> rw [hc] at hcat ⊢
  case inr.inr.inl => rfl
  all_goals cases hcat

/-- `RCLS.TEXP_V` is set for Subnormal and Normal (R24). -/
theorem rclsTEXPV_rclsWord_classify (e m ew : Nat) (bias : Int) :
    rclsTEXPV (rclsWord (classify e m ew bias)) = true ↔
      rclsCAT (rclsWord (classify e m ew bias)) = 2 ∨ rclsCAT (rclsWord (classify e m ew bias)) = 3 := by
  obtain ⟨hc, -⟩ | ⟨hc, -⟩ | ⟨hc, -⟩ | ⟨hc, -⟩ | ⟨hc, -⟩ := classify_cases e m ew bias <;> rw [hc] <;>
    simp [rclsTEXPV, rclsCAT, rclsWord, Category.code, bit]

end

/-! ### Two's complement of a true exponent (R7, R25) -/

theorem toInt_twos64 {x : Int} (hlow : -2 ^ 63 ≤ x) (hhigh : x < 2 ^ 63) : (twos64 x).toInt = x := by
  rw [twos64, BitVec.toInt_ofInt, Int.bmod_def]
  omega

/-- The one wrap-around: the register holds the low 64 bits. -/
theorem toInt_twos64_of_ge {x : Int} (hlow : 2 ^ 63 ≤ x) (hhigh : x < 2 ^ 63 + 2 ^ 64) :
    (twos64 x).toInt = x - 2 ^ 64 := by
  rw [twos64, BitVec.toInt_ofInt, Int.bmod_def]
  omega

theorem signed32_bounds (v : BitVec 32) : -2 ^ 31 ≤ signed32 v ∧ signed32 v < 2 ^ 31 :=
  ⟨v.le_toInt, v.toInt_lt⟩

/-! ### The `CLASSIFY` command (R95) -/

@[simp] theorem exec_classify (s : State) : exec .classify s = execClassify s := rfl

/-- The error path of `CLASSIFY`. -/
theorem execClassify_domain {s : State} (h : 63 < cewWidth s.cew ∨ 2 ^ cewWidth s.cew ≤ s.cexp.toNat) :
    execClassify s = .next (s.errorCompletion .domain) := by
  rw [execClassify]
  split_ifs with hwide hlarge
  · rfl
  · rfl
  · omega

/-- The success path of `CLASSIFY`. -/
theorem execClassify_success {s : State} (hcew : cewWidth s.cew ≤ 63) (hcexp : s.cexp.toNat < 2 ^ cewWidth s.cew) :
    execClassify s = .next ((s.clearResults.writeClass
      (classify s.cexp.toNat s.cman.toNat (cewWidth s.cew) (cbiasValue s.cbias))).setStatus
        (statusWord true 0 false)) := by
  rw [execClassify, if_neg (Nat.not_lt_of_le hcew), if_neg (Nat.not_le_of_lt hcexp)]

/-- Settles O27: the two conditions of the error path. -/
theorem classifyDomainErrors : Obligations.ClassifyDomainErrors := by
  unfold Obligations.ClassifyDomainErrors
  exact fun s h => execClassify_domain h

/-- `RCLS` by the five rules, as R94 writes the words. -/
theorem rclsWord_classify (e m ew : Nat) (bias : Int) : rclsWord (classify e m ew bias) =
    if e = 0 ∧ m = 0 then 0x21
    else if e = 0 then 0x62
    else if e < emax ew then 0x73
    else if m = 0 then 0x04
    else 0x05 := by
  rw [classify]
  split_ifs <;> rfl

/-- `RTEXP` by the five rules (R91). -/
theorem rtexpWord_classify (e m ew : Nat) (bias : Int) : rtexpWord (classify e m ew bias) =
    if e = 0 ∧ m = 0 then 0
    else if e = 0 then twos64 (1 - bias)
    else if e < emax ew then twos64 (e - bias)
    else 0 := by
  rw [classify]
  split_ifs <;> rfl

/-- Settles O26: the success path, with the two words of the classification by its rules. -/
theorem classifyResult : Obligations.ClassifyResult := by
  unfold Obligations.ClassifyResult
  rintro s e m ew bias rfl rfl rfl rfl hcew hcexp
  have hrcls := rclsWord_classify s.cexp.toNat s.cman.toNat (cewWidth s.cew) (cbiasValue s.cbias)
  have hrtexp := rtexpWord_classify s.cexp.toNat s.cman.toNat (cewWidth s.cew) (cbiasValue s.cbias)
  rw [emax] at hrcls hrtexp
  rw [exec_classify, execClassify_success hcew hcexp, State.writeClass, hrcls, hrtexp]
  rfl

/-- Settles O29: a bias has 32 bits, so `E - BIAS` fits a signed register up to `CEW` = 62 and wraps once at most above
it. -/
theorem classifyTrueExponent : Obligations.ClassifyTrueExponent := by
  unfold Obligations.ClassifyTrueExponent
  rintro s ew bias rfl hbias hcew hcexp
  obtain ⟨hlow, hhigh⟩ : -2 ^ 31 ≤ bias ∧ bias < 2 ^ 31 := hbias ▸ signed32_bounds _
  have hnext := execClassify_success hcew hcexp
  rw [show cbiasValue s.cbias = bias from hbias.symm] at hnext
  have hcexp63 : s.cexp.toNat < 2 ^ 63 := hcexp.trans_le (Nat.pow_le_pow_right Nat.two_pos hcew)
  refine ⟨_, hnext, fun hsub => ?_, fun hnormal hfits => ?_, fun hnormal hwraps => ?_,
    rclsTEXPV_rclsWord_classify _ _ _ _, (rcls_of_classify _ _ _ _).2⟩ <;>
    rw [State.setStatus_rtexp, State.writeClass_rtexp]
  · rw [rtexpWord_of_subnormal hsub]
    exact toInt_twos64 (by omega) (by omega)
  · rw [rtexpWord_of_normal hnormal]
    have hexact : (s.cexp.toNat : Int) - bias < 2 ^ 63 := by
      obtain hcew62 | hfits := hfits
      · have hcexp62 : s.cexp.toNat < 2 ^ 62 := hcexp.trans_le (Nat.pow_le_pow_right Nat.two_pos hcew62)
        omega
      · exact hfits
    exact toInt_twos64 (by omega) hexact
  · rw [rtexpWord_of_normal hnormal]
    exact toInt_twos64_of_ge hwraps (by omega)

/-! ### The fields of the extracted sequence (R75, R76)

Under a valid descriptor the exponent field lies above the `MW` low bits of the native pattern, whether the descriptor
truncates or not, and the mantissa field is the leading part of these bits. -/

/-- The dropped bits and the kept mantissa bits are the `MW` bits of the mantissa (R56, R75). -/
theorem Descriptor.dropped_add_keptMan {d : Descriptor} (hd : d.valid = true) :
    d.width.bits - d.seqLen + d.keptMan = d.mw.toNat := by
  simp only [Descriptor.valid, Bool.and_eq_true, decide_eq_true_eq] at hd
  obtain ⟨hsum, hrange⟩ := hd
  rw [Descriptor.keptMan, Descriptor.seqLen]
  split_ifs with htp
  · simp only [htp, Bool.not_true, Bool.false_or, Bool.and_eq_true, decide_eq_true_eq] at hrange
    omega
  · omega

theorem Descriptor.bits_sub_one_eq {d : Descriptor} (hd : d.valid = true) :
    d.width.bits - 1 = d.mw.toNat + d.ew.toNat := by
  simp only [Descriptor.valid, Bool.and_eq_true, decide_eq_true_eq] at hd
  omega

section
variable {d : Descriptor} (hd : d.valid = true) (p : Nat)
include hd

theorem seqExp_truncate : seqExp d (truncate d p) = nativeMag d.width p / 2 ^ d.mw.toNat := by
  rw [seqExp, truncate, bitField_shiftRight, Descriptor.dropped_add_keptMan hd, bitField_eq, nativeMag,
    Descriptor.bits_sub_one_eq hd, Nat.pow_add, Nat.mod_mul_right_div_self]

theorem seqMan_truncate :
    seqMan d (truncate d p) = nativeMag d.width p % 2 ^ d.mw.toNat / 2 ^ (d.width.bits - d.seqLen) := by
  rw [seqMan, truncate, bitField_shiftRight, Nat.add_zero, bitField_eq, nativeMag, Descriptor.bits_sub_one_eq hd,
    Nat.pow_add, Nat.mod_mod_of_dvd _ (Nat.dvd_mul_right _ _), ← Descriptor.dropped_add_keptMan hd, Nat.pow_add,
    Nat.mod_mul_right_div_self]

end

/-! ### The true exponent of a `DECODE` (R91, R161) -/

theorem NativeWidth.infMag_le (w : NativeWidth) : w.infMag ≤ 2 ^ 63 - 2 ^ 52 := by cases w <;> decide

/-- An operand that is no NaN keeps the exponent field, however wide, at most as large as the infinity of the native
layout: away from 2^63 by more than a bias. -/
theorem seqExp_extracted_le {d : Descriptor} (hd : d.valid = true) {v : Word} (hv : isNaN64 v = false) :
    seqExp d (extracted d v) ≤ 2 ^ 63 - 2 ^ 52 := by
  rw [extracted, seqExp_truncate hd]
  calc nativeMag d.width (pack d.width v).pattern / 2 ^ d.mw.toNat
    _ ≤ nativeMag d.width (pack d.width v).pattern := Nat.div_le_self _ _
    _ ≤ d.width.infMag := (pack_bounds d.width hv).2
    _ ≤ 2 ^ 63 - 2 ^ 52 := d.width.infMag_le

/-- Settles O40: neither `1 - BIAS` nor `E - BIAS` leaves the range of a signed register. -/
theorem decodeTrueExponentExact : Obligations.DecodeTrueExponentExact := by
  unfold Obligations.DecodeTrueExponentExact
  intro s slot d hslot hd hv
  have hexp := seqExp_extracted_le hd hv
  obtain ⟨hlow, hhigh⟩ := signed32_bounds d.bias
  refine ⟨_, exec_decode_of_value hslot rfl hv rfl, fun hsub => ?_, fun hnormal => ?_,
    rclsTEXPV_rclsWord_classify _ _ _ _, (rcls_of_classify _ _ _ _).2⟩
  · rw [State.setStatus_rtexp, State.writeDecoded_rtexp, decodeValue, rtexpWord_of_subnormal hsub]
    exact toInt_twos64 (by omega) (by omega)
  · have hrexp : (BitVec.ofNat 64 (decodeValue d s.opa).expBits).toNat = seqExp d (extracted d s.opa) :=
      (BitVec.toNat_ofNat _ _).trans (Nat.mod_eq_of_lt (hexp.trans_lt (by decide)))
    rw [State.setStatus_rtexp, State.writeDecoded_rtexp, State.setStatus_rexp, State.writeDecoded_rexp, hrexp,
      decodeValue, rtexpWord_of_normal hnormal]
    exact toInt_twos64 (by omega) (by omega)

/-! ### The category of a `DECODE` (R98, R99) -/

/-- Under the native exponent width an operand that is no NaN has an all-ones exponent field only with a mantissa field
of 0, which truncation leaves at 0. -/
theorem seqMan_extracted_eq_zero {d : Descriptor} (hd : d.valid = true) (hew : d.ew.toNat = d.width.ewn) {v : Word}
    (hv : isNaN64 v = false) (hexp : emax d.ew.toNat ≤ seqExp d (extracted d v)) : seqMan d (extracted d v) = 0 := by
  have hmw : d.mw.toNat = d.width.mwn := by
    have hbits := Descriptor.bits_sub_one_eq hd
    rw [d.width.bits_sub_one] at hbits
    omega
  rw [extracted, seqExp_truncate hd, hmw, hew] at hexp
  have hinf : nativeMag d.width (pack d.width v).pattern = d.width.infMag :=
    (pack_bounds d.width hv).2.antisymm (not_lt.1 fun hlt => not_lt.2 hexp ((lt_infMag_iff _ _).1 hlt))
  rw [extracted, seqMan_truncate hd, hmw, hinf, NativeWidth.infMag, Nat.shiftLeft_eq, Nat.mul_mod_left, Nat.zero_div]

theorem cat_decodeValue_ne_nan {d : Descriptor} (hd : d.valid = true) (hew : d.ew.toNat = d.width.ewn) {v : Word}
    (hv : isNaN64 v = false) : (decodeValue d v).cls.cat ≠ .nan := by
  intro hcat
  rw [decodeValue] at hcat
  obtain ⟨hc, -⟩ | ⟨hc, -⟩ | ⟨hc, -⟩ | ⟨hc, -⟩ | ⟨-, -, hexp, hman⟩ := classify_cases (seqExp d (extracted d v))
    (seqMan d (extracted d v)) d.ew.toNat (signed32 d.bias)
  case inr.inr.inr.inr => exact hman (seqMan_extracted_eq_zero hd hew hv hexp)
  all_goals rw [hc] at hcat; cases hcat

theorem decodeValue_xn_plusInf : decodeValue ExampleSet.xn 0x7FF0000000000000 =
    { sign := 0, expBits := 31, manBits := 0x3F0000000000000, ew := 5, km := 58, len := 64, nativeBits := 64
      cls := { cat := .nan, impl := none, texp := none }
      stored := 0x7FF0000000000000, error := 0x7FF0000000000000, ovf := false } := by decide +kernel

/-- Settles O39: the category is not NaN under the native exponent width, and the pipeline evaluated under XN. -/
theorem nanCategoryReachability : Obligations.NanCategoryReachability := by
  unfold Obligations.NanCategoryReachability
  refine ⟨fun s slot d hslot hd hew hv => ?_, fun s slot hslot hopa => ?_⟩
  · refine ⟨_, exec_decode_of_value hslot rfl hv rfl, ?_⟩
    have hcat := cat_decodeValue_ne_nan hd hew hv
    rw [State.setStatus_rcls, State.writeDecoded_rcls]
    generalize (decodeValue d s.opa).cls = c at hcat ⊢
    have hiff := rclsCAT_rclsWord_eq_iff c
    cases hc : c.cat with
    | zero => exact .inl ((hiff .zero).2 hc)
    | subnormal => exact .inr (.inl ((hiff .subnormal).2 hc))
    | normal => exact .inr (.inr (.inl ((hiff .normal).2 hc)))
    | infinity => exact .inr (.inr (.inr ((hiff .infinity).2 hc)))
    | nan => exact absurd hc hcat
  · exact ⟨_, exec_decode_of_value hslot hopa (by decide) decodeValue_xn_plusInf, rfl, rfl, rfl, rfl⟩

theorem decodeValue_d64_smallestNormal : decodeValue ExampleSet.d64 0x0010000000000000 =
    { sign := 0, expBits := 1, manBits := 0, ew := 11, km := 52, len := 64, nativeBits := 64
      cls := { cat := .normal, impl := some true, texp := some (-1022) }
      stored := 0x0010000000000000, error := 0, ovf := false } := by decide +kernel

theorem decodeValue_d64_largestSubnormal : decodeValue ExampleSet.d64 0x000FFFFFFFFFFFFF =
    { sign := 0, expBits := 0, manBits := 0xFFFFFFFFFFFFF, ew := 11, km := 52, len := 64, nativeBits := 64
      cls := { cat := .subnormal, impl := some false, texp := some (-1022) }
      stored := 0x000FFFFFFFFFFFFF, error := 0, ovf := false } := by decide +kernel

/-- Settles O41: the pipeline evaluated on the two operands at the boundary. -/
theorem subnormalBoundary : Obligations.SubnormalBoundary := by
  unfold Obligations.SubnormalBoundary
  refine fun s slot hslot => ⟨fun hopa => ?_, fun hopa => ?_⟩
  · rw [exec_decode_of_value hslot hopa (by decide) decodeValue_d64_smallestNormal]
    rfl
  · rw [exec_decode_of_value hslot hopa (by decide) decodeValue_d64_largestSubnormal]
    rfl

end Sys2Proof.Machine

/-! ## The ErrorComputer (44_error_computer.md): the scale 2^-1074, `enc64_exact`, and the error of a `DECODE` -/

namespace Sys2Proof.Machine

/-! ### The corners of the error (R103, R104) -/

theorem isFinite64_iff {p : Word} : isFinite64 p = true ↔ exp64 p ≠ 2047 := by rw [isFinite64, decide_eq_true_iff]

theorem isInf64_eq_false_of_finite {p : Word} (h : exp64 p ≠ 2047) : isInf64 p = false := by
  rw [isInf64, decide_eq_false h, Bool.false_and]

theorem exp64_absError_of_finite {v sv : Word} (hv : exp64 v ≠ 2047) (hsv : exp64 sv ≠ 2047) :
    exp64 (absError v sv) ≠ 2047 := by
  have hlt : (absError v sv).toNat < 2047 * 2 ^ 52 :=
    absError_of_finite (by rw [isInf64_eq_false_of_finite hv, isInf64_eq_false_of_finite hsv, Bool.or_false])
  rw [exp64_eq]
  omega

/-- Settles O50: the reported error is a non-negative pattern up to +inf, below it for finite inputs. -/
theorem errorIsNonNegative : Obligations.ErrorIsNonNegative := by
  unfold Obligations.ErrorIsNonNegative
  intro v sv _ _
  have hle := absError_le v sv
  refine ⟨?_, ?_, fun hv hsv => ?_, fun hinf => ?_⟩
  · rw [sign64_eq, decide_eq_false_iff_not]
    omega
  · rw [isNaN64_eq_false_iff]
    omega
  · rw [isFinite64_iff] at hv hsv ⊢
    exact exp64_absError_of_finite hv hsv
  · exact absError_of_infinite (Bool.or_eq_true_iff.2 hinf)

/-- Settles O49: the ErrorComputer answers +inf before it looks at the operand. -/
theorem infiniteStoredValueHasInfiniteError : Obligations.InfiniteStoredValueHasInfiniteError := by
  unfold Obligations.InfiniteStoredValueHasInfiniteError
  intro s slot d hslot hv hinf
  exact ⟨_, exec_decode_of_value hslot rfl hv rfl, rfl, absError_of_infinite (by rw [hinf, Bool.true_or])⟩

/-! ### Finite patterns on the scale 2^-1074 (R101) -/

/-- `ord64` in one formula: the integer significand of R69, shifted by how far the exponent field is above the
subnormals'. -/
theorem ord64_eq (p : Word) : ord64 p = significand64 p * 2 ^ (exp64 p - 1) := by
  rw [ord64, significand64]
  split_ifs with hexp
  · rw [hexp, Nat.zero_sub, pow_zero, mul_one]
  · rw [Nat.shiftLeft_eq]

theorem scale64_eq (p : Word) : scale64 p = ((exp64 p - 1 : Nat) : Int) - 1074 := by
  rw [scale64]
  split_ifs with hexp <;> omega

theorem significand64_lt (p : Word) : significand64 p < 2 ^ 53 := by
  have hman := man64_lt p
  rw [significand64]
  split_ifs <;> omega

/-- A quantum on the scale 2^-1074. -/
theorem two_zpow_scale64 (p : Word) : (2 : ℚ) ^ scale64 p = 2 ^ (exp64 p - 1) * 2 ^ (-1074 : Int) := by
  rw [scale64_eq, sub_eq_add_neg, zpow_add₀ two_ne_zero, zpow_natCast]

theorem operandMag_eq_ord64 (p : Word) : operandMag p = ord64 p * 2 ^ (-1074 : Int) := by
  rw [operandMag, two_zpow_scale64, ord64_eq, Nat.cast_mul, Nat.cast_pow, Nat.cast_two, mul_assoc]

theorem signed_operandMag (p : Word) : signed (sign64 p) (operandMag p) = sord64 p * 2 ^ (-1074 : Int) := by
  rw [operandMag_eq_ord64, signed, sord64]
  split_ifs
  · rw [Int.cast_neg, Int.cast_natCast, neg_mul]
  · rw [Int.cast_natCast]

theorem val64_eq_sord64 {p : Word} (h : exp64 p ≠ 2047) :
    val64 p = some (.finite (sord64 p * 2 ^ (-1074 : Int))) :=
  val64_eq_finite_iff.2 ⟨h, (signed_operandMag p).symm⟩

/-- Settles O45: the significand and the quantum of R69, on the common scale. -/
theorem ordIsValue : Obligations.OrdIsValue := by
  unfold Obligations.OrdIsValue
  exact fun p hp => val64_eq_sord64 (isFinite64_iff.1 hp)

/-! ### `enc64_exact` and `ord64` (R106) -/

theorem bitlen_mul_two_pow {m : Nat} (hm : 0 < m) (k : Nat) : bitlen (m * 2 ^ k) = bitlen m + k := by
  have hlt : ∀ j, bitlen (m * 2 ^ k) ≤ j + k ↔ bitlen m ≤ j := fun j => by
    rw [bitlen_le_iff, bitlen_le_iff, pow_add, Nat.mul_lt_mul_right (Nat.two_pow_pos k)]
  have hk : k < bitlen (m * 2 ^ k) := by
    rw [← not_le, bitlen_le_iff, not_lt]
    exact Nat.le_mul_of_pos_left _ hm
  have hle := (hlt _).2 (le_refl (bitlen m))
  have hge := (hlt (bitlen (m * 2 ^ k) - k)).1 (by omega)
  omega

/-- A significand of 53 bits times a power of two below the format's overflow is a binary64 value. -/
theorem representable64_mul_two_pow {m k : Nat} (hm : m < 2 ^ 53) (hk : k ≤ 2045) :
    representable64 (m * 2 ^ k) = true := by
  obtain rfl | hpos := Nat.eq_zero_or_pos m
  · rw [Nat.zero_mul]; decide
  have hlen : bitlen m ≤ 53 := (bitlen_le_iff m 53).2 hm
  rw [representable64, bitlen_mul_two_pow hpos, Bool.and_eq_true, decide_eq_true_iff, decide_eq_true_iff]
  exact ⟨Nat.mod_eq_zero_of_dvd ((pow_dvd_pow 2 (by omega)).mul_left m), by omega⟩

theorem representable64_ord64 {p : Word} (h : exp64 p ≠ 2047) : representable64 (ord64 p) = true := by
  have hexp := exp64_lt p
  rw [ord64_eq]
  exact representable64_mul_two_pow (significand64_lt p) (by omega)

/-- The two cases of `enc64_exact`: the exponent field of `ord64`'s subnormals and of its normals. -/
theorem enc64Nat_ord64 {p : Word} (hsign : sign64 p = false) : enc64Nat (ord64 p) = p.toNat := by
  have hman := man64_lt p
  have hfields := toNat_eq_fields p
  rw [hsign, bit, if_neg Bool.false_ne_true, Nat.zero_mul, Nat.zero_add] at hfields
  rw [hfields, enc64Nat]
  by_cases hexp : exp64 p = 0
  · rw [ord64, if_pos hexp, if_pos ((bitlen_le_iff _ _).2 hman), hexp, Nat.zero_mul, Nat.zero_add]
  · have hlen : bitlen (ord64 p) = 53 + (exp64 p - 1) := by
      rw [ord64_eq, bitlen_mul_two_pow (by rw [significand64, if_neg hexp]; omega), bitlen_significand hexp]
    have hsig : ord64 p >>> (exp64 p - 1) = 2 ^ 52 + man64 p := by
      rw [ord64, if_neg hexp, Nat.shiftLeft_shiftRight]
    rw [hlen, if_neg (by omega), Nat.add_sub_cancel_left, hsig, Nat.shiftLeft_eq, Nat.add_sub_cancel_left]
    congr 2
    omega

theorem ofNat_enc64Nat_ord64 {p : Word} (hsign : sign64 p = false) : BitVec.ofNat 64 (enc64Nat (ord64 p)) = p := by
  rw [enc64Nat_ord64 hsign, BitVec.ofNat_toNat, BitVec.setWidth_eq]

/-- Every representable integer is the magnitude of a finite pattern. -/
theorem exists_ord64_eq {n : Nat} (h : representable64 n = true) :
    ∃ p, exp64 p ≠ 2047 ∧ sign64 p = false ∧ ord64 p = n := by
  rw [representable64, Bool.and_eq_true, decide_eq_true_iff, decide_eq_true_iff] at h
  obtain ⟨hlow, hmax⟩ := h
  by_cases hsub : n < 2 ^ 52
  · obtain ⟨hsign, hexp, hman⟩ := mk64_fields (s := false) (e := 0) (by decide) hsub
    exact ⟨mk64 false 0 n, by omega, hsign, by rw [ord64, if_pos hexp, hman]⟩
  have hlen : 53 ≤ bitlen n := by
    by_contra hlt
    exact hsub ((bitlen_le_iff n 52).1 (by omega))
  obtain ⟨i, hi⟩ := Nat.dvd_of_mod_eq_zero hlow
  have hpos : 0 < i := Nat.pos_of_ne_zero fun h0 => hsub (by rw [hi, h0, Nat.mul_zero]; decide)
  have hlen53 : bitlen i = 53 := by
    have hmul := bitlen_mul_two_pow hpos (bitlen n - 53)
    rw [Nat.mul_comm, ← hi] at hmul
    omega
  obtain ⟨hlo, hhi, -⟩ := bitlen_bounds hpos
  rw [hlen53] at hlo hhi
  obtain ⟨hsign, hexp, hman⟩ := mk64_fields (s := false) (e := bitlen n - 52) (f := i - 2 ^ 52) (by omega) (by omega)
  refine ⟨mk64 false (bitlen n - 52) (i - 2 ^ 52), by omega, hsign, ?_⟩
  rw [ord64, if_neg (by omega), hexp, hman, Nat.shiftLeft_eq, Nat.add_sub_cancel' hlo, Nat.sub_sub, Nat.mul_comm]
  exact hi.symm

/-- Settles O46: the finite patterns of sign bit 0 and the representable integers correspond. -/
theorem encodeExactInvertsOrd : Obligations.EncodeExactInvertsOrd := by
  unfold Obligations.EncodeExactInvertsOrd
  refine ⟨fun p hp => representable64_ord64 (isFinite64_iff.1 hp), fun p _ hsign => enc64Nat_ord64 hsign,
    fun n hn => ⟨enc64Nat_lt hn, ?_⟩⟩
  obtain ⟨p, -, hsign, rfl⟩ := exists_ord64_eq hn
  rw [ofNat_enc64Nat_ord64 hsign]

/-! ### When the error is exact (R102, R105) -/

theorem val64_of_ord64 {p : Word} (hexp : exp64 p ≠ 2047) (hsign : sign64 p = false) :
    val64 p = some (.finite (ord64 p * 2 ^ (-1074 : Int))) := by
  rw [val64_eq_sord64 hexp, sord64, hsign, if_neg Bool.false_ne_true, Int.cast_natCast]

/-- The representable integers are those whose multiple of 2^-1074 is the value of some pattern (R101, R106). -/
theorem representable64_iff {n : Nat} :
    representable64 n = true ↔ ∃ p, val64 p = some (.finite (n * 2 ^ (-1074 : Int))) := by
  constructor
  · intro h
    obtain ⟨p, hexp, hsign, rfl⟩ := exists_ord64_eq h
    exact ⟨p, val64_of_ord64 hexp hsign⟩
  · rintro ⟨p, hp⟩
    obtain ⟨hexp, hval⟩ := val64_eq_finite_iff.1 hp
    have hunit : (0 : ℚ) < 2 ^ (-1074 : Int) := by positivity
    have hmag : (n : ℚ) * 2 ^ (-1074 : Int) = ord64 p * 2 ^ (-1074 : Int) := by
      rw [← operandMag_eq_ord64, ← abs_signed (sign64 p) (operandMag_nonneg p), ← hval, abs_of_nonneg (by positivity)]
    obtain rfl : n = ord64 p := Nat.cast_injective (mul_right_cancel₀ hunit.ne' hmag)
    exact representable64_ord64 hexp

section
variable {v sv : Word} {x y : ℚ} (hx : val64 v = some (.finite x)) (hy : val64 sv = some (.finite y))
include hx hy

/-- `D` of R102 is the distance on the scale 2^-1074. -/
theorem abs_sub_eq_errorOrd : |x - y| = errorOrd v sv * 2 ^ (-1074 : Int) := by
  obtain ⟨-, rfl⟩ := val64_eq_finite_iff.1 hx
  obtain ⟨-, rfl⟩ := val64_eq_finite_iff.1 hy
  rw [signed_operandMag, signed_operandMag, ← sub_mul, abs_mul, abs_of_pos (zpow_pos (two_pos (α := ℚ)) _), errorOrd,
    Nat.cast_natAbs, Int.cast_abs, Int.cast_sub]

/-- What R106 asks of `D`: that some binary64 pattern has the exact distance as its value. -/
theorem representable64_errorOrd_iff :
    representable64 (errorOrd v sv) = true ↔ ∃ p, val64 p = some (.finite |x - y|) := by
  rw [abs_sub_eq_errorOrd hx hy, representable64_iff]

/-- Then the error has the exact distance as its value: no rounding (R102). -/
theorem val64_absError_of_representable (h : representable64 (errorOrd v sv) = true) :
    val64 (absError v sv) = some (.finite |x - y|) := by
  have hv := (val64_eq_finite_iff.1 hx).1
  have hsv := (val64_eq_finite_iff.1 hy).1
  obtain ⟨p, hexp, hsign, hord⟩ := exists_ord64_eq h
  have herr : absError v sv = p := by
    rw [absError, isInf64_eq_false_of_finite hv, isInf64_eq_false_of_finite hsv, Bool.or_false,
      if_neg Bool.false_ne_true, if_pos h, ← hord, ofNat_enc64Nat_ord64 hsign]
  rw [herr, abs_sub_eq_errorOrd hx hy, ← hord, val64_of_ord64 hexp hsign]

end

/-! ### A descriptor with an inexact error (log 9, log 10) -/

/-- A single-width descriptor that keeps the sign bit and one bit of the native exponent field. -/
def exponentCutter : Descriptor := { width := .w32, ew := 0, mw := 31, tp := true, t := 2, bias := 0 }

/-- 2^100 + 2^48 under that descriptor is stored as 2.0. -/
theorem storedValue_exponentCutter : storedValue exponentCutter 0x4630000000000001 = 0x4000000000000000 := by
  decide +kernel

/-- 2^100 + 2^48 - 2 has 100 significant bits. -/
theorem representable64_errorOrd_exponentCutter :
    representable64 (errorOrd 0x4630000000000001 0x4000000000000000) = false := by decide +kernel

/-- A unit whose slot 0 holds that descriptor and whose operand is 2^100 + 2^48. -/
def exponentCutterState : State :=
  { State.resetOf 1 with table := [some exponentCutter], opa := 0x4630000000000001 }

/-- Refutes O48: 2^100 + 2^48 under a descriptor that keeps one native exponent bit is stored as 2.0, and no binary64
pattern has the difference as its value. -/
theorem not_errorIsExactForEveryDescriptor : ¬ Obligations.ErrorIsExactForEveryDescriptor := by
  unfold Obligations.ErrorIsExactForEveryDescriptor
  intro h
  have hopa := val64_eq_sord64 (p := exponentCutterState.opa) (by decide)
  have hrsv := val64_eq_sord64 (p := 0x4000000000000000) (by decide)
  rw [← storedValue_exponentCutter] at hrsv
  have herr := h exponentCutterState _ 0 exponentCutter _ _ rfl (by decide)
    (exec_decode_of_value rfl rfl (by decide) rfl) hopa hrsv
  have hrep := (representable64_errorOrd_iff hopa hrsv).2 ⟨_, herr⟩
  rw [storedValue_exponentCutter] at hrep
  exact absurd hrep (ne_true_of_eq_false representable64_errorOrd_exponentCutter)

/-! ### The stored value is a multiple of the operand's quantum (R105) -/

/-- The exponent of the quantum at a magnitude pattern: that of its binade, the subnormals sharing the lowest one
(R44, R69). -/
def magQuantum (w : NativeWidth) (p : Nat) : Int := (max 1 (p / 2 ^ w.mwn) : Nat) - w.biasn - w.mwn

theorem exists_magValue_eq_mul {w : NativeWidth} {p : Nat} {q : Int} (hq : q ≤ magQuantum w p) :
    ∃ i : Nat, magValue w p = i * 2 ^ q := by
  have hquantum : ∃ j : Nat, magValue w p = j * 2 ^ magQuantum w p := by
    rw [magValue, magQuantum]
    split_ifs with hzero
    · exact ⟨p % 2 ^ w.mwn, by rw [hzero, NativeWidth.emin]; rfl⟩
    · exact ⟨2 ^ w.mwn + p % 2 ^ w.mwn, by rw [max_eq_right (Nat.pos_of_ne_zero hzero)]; push_cast; rfl⟩
  obtain ⟨j, hj⟩ := hquantum
  refine ⟨j * 2 ^ (magQuantum w p - q).toNat, ?_⟩
  have hsplit : (2 : ℚ) ^ magQuantum w p = 2 ^ (magQuantum w p - q).toNat * 2 ^ q := by
    rw [← zpow_natCast, ← zpow_add₀ two_ne_zero, Int.toNat_of_nonneg (sub_nonneg.2 hq), sub_add_cancel]
  rw [hj, hsplit]
  push_cast
  ring

theorem magQuantum_le {w : NativeWidth} {p p' : Nat} (h : p / 2 ^ w.mwn ≤ p' / 2 ^ w.mwn) :
    magQuantum w p ≤ magQuantum w p' := by
  have hmax := max_le_max_left 1 h
  rw [magQuantum, magQuantum]
  omega

theorem magQuantum_toNat (v : Word) : magQuantum .w64 (nativeMag .w64 v.toNat) = scale64 v := by
  have hexp : nativeMag .w64 v.toNat / 2 ^ 52 = exp64 v := by
    rw [exp64_eq]; exact (bitField_exp_eq .w64 v.toNat).symm.trans (bitField_eq _ _ _)
  rw [magQuantum, scale64_eq, NativeWidth.mwn, NativeWidth.biasn, hexp]
  omega

/-- The quantum at an operand's lower neighbour is the quantum it is rounded at (R69). -/
theorem magQuantum_floorMag {w : NativeWidth} (hw : w ≠ .w64) (v : Word) :
    magQuantum w (floorMag w v) = quantumExp w v := by
  have hpos := Nat.two_pow_pos w.mwn
  rw [magQuantum, floorMag, assembledMag, quantumExp]
  split
  next h =>
    obtain ⟨hlow, hhigh⟩ := keptSig_of_normal hw v h
    rw [Nat.pow_succ] at hhigh
    have hmax : 1 ≤ (leadExp64 v + w.biasn).toNat := by rw [NativeWidth.emin] at h; omega
    rw [Nat.shiftLeft_eq, Nat.mul_comm, Nat.mul_add_div hpos, Nat.div_eq_of_lt (by omega), Nat.add_zero,
      max_eq_right hmax, max_eq_left h]
    omega
  next h =>
    rw [Nat.div_eq_of_lt (keptSig_of_subnormal hw v (lt_of_not_ge h)), max_eq_right (le_of_not_ge h),
      NativeWidth.emin]
    rfl

section
variable {w : NativeWidth} (hw : w ≠ .w64) (v : Word)
include hw

theorem floorMag_le_packedMag : floorMag w v ≤ packedMag w v := by
  obtain ⟨⟨hpack, -⟩ | ⟨hpack, -⟩, -⟩ := packedMag_cases hw v <;> omega

theorem scale64_le_magQuantum_packedMag : scale64 v ≤ magQuantum w (packedMag w v) :=
  calc scale64 v
    _ ≤ quantumExp w v := (scale_lt_quantumExp hw v).le
    _ = magQuantum w (floorMag w v) := (magQuantum_floorMag hw v).symm
    _ ≤ magQuantum w (packedMag w v) := magQuantum_le (Nat.div_le_div_right (floorMag_le_packedMag hw v))

/-- Rounding at most doubles a magnitude: 0 is a value too, and no nearer. -/
theorem magValue_packedMag_le : magValue w (packedMag w v) ≤ 2 * operandMag v := by
  have hnear := (packedMag_nearest hw v 0).1
  rw [magValue_zero, zero_sub, abs_neg, abs_of_nonneg (operandMag_nonneg v)] at hnear
  linarith [le_abs_self (magValue w (packedMag w v) - operandMag v)]

theorem nativeMag_pack_of_finite {v : Word} (hv : exp64 v ≠ 2047)
    (hfin : nativeMag w (pack w v).pattern < w.infMag) : nativeMag w (pack w v).pattern = packedMag w v := by
  have hmin : nativeMag w (pack w v).pattern = min (packedMag w v) w.infMag := by
    rw [pack_pattern hw hv, nativeMag_withSign _ ((Nat.min_le_right _ _).trans_lt w.infMag_lt)]
  omega

end

/-- Packing to a finite pattern, at every width, does not refine the quantum and at most doubles the magnitude. -/
theorem pack_quantum_and_bound (w : NativeWidth) {v : Word} (hv : exp64 v ≠ 2047)
    (hfin : nativeMag w (pack w v).pattern < w.infMag) :
    scale64 v ≤ magQuantum w (nativeMag w (pack w v).pattern) ∧
      magValue w (nativeMag w (pack w v).pattern) ≤ 2 * operandMag v := by
  by_cases hw : w = .w64
  · subst hw
    have hnonneg := operandMag_nonneg v
    exact ⟨(magQuantum_toNat v).ge, (magValue_toNat v).le.trans (by linarith)⟩
  · rw [nativeMag_pack_of_finite hw hv hfin]
    exact ⟨scale64_le_magQuantum_packedMag hw v, magValue_packedMag_le hw v⟩

section
variable {d : Descriptor} (hd : d.valid = true) (hkeep : d.keepsNativeExp = true) {v : Word}
include hd hkeep

/-- Dropping mantissa bits keeps the native exponent field (R74). -/
theorem nativeMag_pad_truncate_div (p : Nat) :
    nativeMag d.width (pad d (truncate d p)) / 2 ^ d.width.mwn = nativeMag d.width p / 2 ^ d.width.mwn := by
  obtain ⟨j, hj⟩ := Nat.exists_eq_add_of_le (Descriptor.dropped_le_mwn hkeep)
  rw [nativeMag, pad_truncate, clear_low_mod _ _ _ (Descriptor.dropped_le hd), ← nativeMag, hj, Nat.pow_add,
    ← Nat.div_div_eq_div_mul, ← Nat.div_div_eq_div_mul, Nat.mul_div_cancel _ (Nat.two_pow_pos _)]

/-- A finite stored value comes from a finite packed pattern (R105 (a)). -/
theorem packed_finite_of_stored_finite (hv : isNaN64 v = false) (hsv : exp64 (storedValue d v) ≠ 2047) :
    nativeMag d.width (pack d.width v).pattern < d.width.infMag := by
  refine lt_of_le_of_ne (pack_bounds d.width hv).2 fun hinf => hsv ?_
  rw [storedValue_of_infinite hd hkeep hv hinf]
  exact (mk64_fields (by decide) (by decide)).2.1

/-- A finite stored value comes from a finite operand (R105 (a)). -/
theorem operand_finite_of_stored_finite (hv : isNaN64 v = false) (hsv : exp64 (storedValue d v) ≠ 2047) :
    exp64 v ≠ 2047 := fun hexp =>
  (packed_finite_of_stored_finite hd hkeep hv hsv).ne (nativeMag_pack_of_infinite d.width hv hexp)

/-- A finite stored value is a multiple of the operand's quantum, of the operand's sign, and at most twice as large
(R105 (b)). -/
theorem exists_ord64_storedValue (hv : isNaN64 v = false) (hsv : exp64 (storedValue d v) ≠ 2047) :
    ∃ i ≤ 2 * significand64 v, ord64 (storedValue d v) = i * 2 ^ (exp64 v - 1) ∧
      sign64 (storedValue d v) = sign64 v := by
  have hpacked := packed_finite_of_stored_finite hd hkeep hv hsv
  have hle := nativeMag_pad_truncate_le d (pack d.width v).pattern
  have hstored := unpack_finitePattern (padded_lt d hv) (hle.trans_lt hpacked)
  obtain ⟨hquantum, hbound⟩ :=
    pack_quantum_and_bound d.width (operand_finite_of_stored_finite hd hkeep hv hsv) hpacked
  have hexp := nativeMag_pad_truncate_div hd hkeep (pack d.width v).pattern
  obtain ⟨i, hi⟩ := exists_magValue_eq_mul (hquantum.trans (magQuantum_le hexp.ge))
  have hmag : operandMag (storedValue d v) = i * 2 ^ scale64 v := hstored.mag.trans hi
  refine ⟨i, ?_, ?_, hstored.sign.trans ((nativeSign_pad_truncate hd _).trans (nativeSign_pack d.width v))⟩
  · have hunit : (0 : ℚ) < 2 ^ scale64 v := by positivity
    have hdouble : (i : ℚ) * 2 ^ scale64 v ≤ (2 * significand64 v) * 2 ^ scale64 v := by
      rw [← hi, mul_assoc]
      exact ((magValue_strictMono d.width).monotone hle).trans hbound
    exact_mod_cast le_of_mul_le_mul_right hdouble hunit
  · have hunit : (2 : ℚ) ^ (-1074 : Int) ≠ 0 := by positivity
    rw [operandMag_eq_ord64, two_zpow_scale64, ← mul_assoc] at hmag
    exact_mod_cast mul_right_cancel₀ hunit hmag

/-- R105 (b): the distance is a multiple of the operand's quantum and at most the operand. -/
theorem representable64_errorOrd_storedValue (hv : isNaN64 v = false) (hsv : exp64 (storedValue d v) ≠ 2047) :
    representable64 (errorOrd v (storedValue d v)) = true := by
  obtain ⟨i, hi, hord, hsign⟩ := exists_ord64_storedValue hd hkeep hv hsv
  have hfin := operand_finite_of_stored_finite hd hkeep hv hsv
  have hexp := exp64_lt v
  have hsig := significand64_lt v
  have herr : errorOrd v (storedValue d v) = ((significand64 v : Int) - i).natAbs * 2 ^ (exp64 v - 1) := by
    have hfactor : ((ord64 v : Int) - ord64 (storedValue d v)).natAbs =
        ((significand64 v : Int) - i).natAbs * 2 ^ (exp64 v - 1) := by
      rw [hord, ord64_eq, Nat.cast_mul, Nat.cast_mul, ← sub_mul, Int.natAbs_mul, Int.natAbs_natCast]
    rw [← hfactor, errorOrd, sord64, sord64, hsign]
    split_ifs <;> omega
  rw [herr]
  exact representable64_mul_two_pow (by omega) (by omega)

end

/-- Settles O47: the difference is representable, by R105 where the descriptor keeps the native exponent field, else by
the pattern at hand. -/
theorem errorIsExact : Obligations.ErrorIsExact := by
  unfold Obligations.ErrorIsExact
  refine ⟨fun s slot d hslot hd hkeep hv => ⟨_, exec_decode_of_value hslot rfl hv rfl, fun y hy => ?_⟩,
    fun s slot d hslot _ hv => ⟨_, exec_decode_of_value hslot rfl hv rfl, fun x y p hx hy hp => ?_⟩⟩
  · have hsv := (val64_eq_finite_iff.1 hy).1
    have hx := val64_eq_sord64 (operand_finite_of_stored_finite hd hkeep hv hsv)
    exact ⟨_, hx, val64_absError_of_representable hx hy (representable64_errorOrd_storedValue hd hkeep hv hsv)⟩
  · exact val64_absError_of_representable hx hy ((representable64_errorOrd_iff hx hy).2 ⟨p, hp⟩)

end Sys2Proof.Machine

/-! ## The `DECODE` command (45_decode.md): its completions, and the properties of the pipeline as a whole -/

namespace Sys2Proof.Machine

/-! ### The command's completions (R111, R115) -/

theorem resultStatus_eq (ovf : Bool) : statusWord true 0 ovf = if ovf then 0x101 else 0x001 := by
  cases ovf <;> rfl

theorem statusERR_errorStatus (e : ErrCode) : statusERR (statusWord false e.code false) = BitVec.ofNat 4 e.code := by
  cases e <;> decide

theorem statusERR_resultStatus (ovf : Bool) : statusERR (statusWord true 0 ovf) = 0 := by cases ovf <;> decide

theorem bitField_zero_lo (v width : Nat) : bitField v 0 width = v % 2 ^ width := by
  rw [bitField, Nat.shiftRight_zero]

/-- Settles O30: the success path, with the three slices of the sequence and the status word written out. -/
theorem decodeResult : Obligations.DecodeResult := by
  unfold Obligations.DecodeResult
  rintro s slot d P W L S KM c SV hslot hv rfl rfl rfl rfl rfl rfl rfl
  rw [exec_decode_of_value hslot rfl hv rfl, resultStatus_eq, ← bitField_zero_lo]
  rfl

theorem execDecode_of_not_slotValid {s : State} {slot : Nat} (h : s.slotValid slot = false) :
    execDecode slot s = .next (s.errorCompletion .slot) := by
  rw [s.slotValid_eq_isSome, Option.isSome_eq_false_iff, Option.isNone_iff_eq_none] at h
  rw [execDecode, h]
  exact ite_self _

theorem execDecode_of_nan {s : State} {slot : Nat} (hslot : s.slotValid slot = true) (hnan : isNaN64 s.opa = true) :
    execDecode slot s = .next (s.errorCompletion .domain) := by
  obtain ⟨d, hd⟩ := Option.isSome_iff_exists.1 hslot
  rw [execDecode, if_neg (Nat.not_le_of_lt (State.lt_ndesc_of_descriptor? hd)), hd]
  exact if_pos hnan

/-- Settles O31: the slot is empty or absent, or the operand is a NaN, or the command succeeds. -/
theorem decodeErrorsInOrder : Obligations.DecodeErrorsInOrder := by
  unfold Obligations.DecodeErrorsInOrder
  refine ⟨fun s slot => ⟨fun h => ?_, execDecode_of_nan⟩, fun s t slot ht => ?_⟩
  · exact execDecode_of_not_slotValid (h.elim State.slotValid_eq_false_of_le id)
  · cases hvalid : s.slotValid slot with
    | false =>
      cases (execDecode_of_not_slotValid hvalid).symm.trans ht
      exact .inr (.inl (statusERR_errorStatus .slot))
    | true =>
      obtain ⟨d, hd⟩ := Option.isSome_iff_exists.1 hvalid
      cases hnan : isNaN64 s.opa with
      | true =>
        cases (execDecode_of_nan hvalid hnan).symm.trans ht
        exact .inr (.inr (statusERR_errorStatus .domain))
      | false =>
        cases (execDecode_success hd hnan).symm.trans ht
        exact .inl (statusERR_resultStatus _)

/-- Settles O32: both commands write the result of one pipeline, a function of descriptor and operand. -/
theorem decodeIsPure : Obligations.DecodeIsPure := by
  unfold Obligations.DecodeIsPure
  intro s s' k k' d hk hk' hopa hv
  exact ⟨_, _, exec_decode_of_value hk rfl hv rfl, exec_decode_of_value hk' hopa.symm hv rfl,
    rfl, rfl, rfl, rfl, rfl, rfl, rfl, rfl, rfl, rfl⟩

/-! ### The worked decodes (R115, R119, R120) -/

theorem pack_w16_tenBillion : pack .w16 0x4202A05F20000000 = { pattern := 0x7C00, ovf := true } := by decide +kernel

theorem decodeValue_d16_tenBillion : decodeValue ExampleSet.d16 0x4202A05F20000000 =
    { sign := 0, expBits := 0x1F, manBits := 0, ew := 5, km := 10, len := 16, nativeBits := 16
      cls := { cat := .infinity, impl := none, texp := none }
      stored := 0x7FF0000000000000, error := 0x7FF0000000000000, ovf := true } := by decide +kernel

theorem decodeValue_d64_oneTenth : decodeValue ExampleSet.d64 0x3FB999999999999A =
    { sign := 0, expBits := 0x3FB, manBits := 0x999999999999A, ew := 11, km := 52, len := 64, nativeBits := 64
      cls := { cat := .normal, impl := some true, texp := some (-4) }
      stored := 0x3FB999999999999A, error := 0, ovf := false } := by decide +kernel

theorem decodeValue_t16_oneTenth : decodeValue ExampleSet.t16 0x3FB999999999999A =
    { sign := 0, expBits := 0x7B, manBits := 0x4C, ew := 8, km := 7, len := 16, nativeBits := 32
      cls := { cat := .normal, impl := some true, texp := some (-4) }
      stored := 0x3FB9800000000000, error := 0x3F39999999999A00, ovf := false } := by decide +kernel

/-- Settles O54: the pipeline evaluated on the three pairs of descriptor and operand. -/
theorem workedDecodes : Obligations.WorkedDecodes := by
  unfold Obligations.WorkedDecodes
  refine ⟨pack_w16_tenBillion, fun s slot hslot hopa => ?_, fun s slot hslot hopa => ?_, fun s slot hslot hopa => ?_⟩
  · rw [exec_decode_of_value hslot hopa (by decide) decodeValue_d16_tenBillion]
    rfl
  · rw [exec_decode_of_value hslot hopa (by decide) decodeValue_d64_oneTenth]
    rfl
  · rw [exec_decode_of_value hslot hopa (by decide) decodeValue_t16_oneTenth]
    rfl

/-! ### Round trip at 64 bits (R116) -/

/-- A stored value equal to the operand has error 0 (R102). -/
theorem absError_self {v : Word} (hv : exp64 v ≠ 2047) : absError v v = 0 := by
  rw [absError, isInf64_eq_false_of_finite hv, errorOrd, sub_self]
  rfl

/-- Without truncation nothing is dropped, and nothing padded (R75, R83). -/
theorem storedValue_of_untruncated {d : Descriptor} (htp : d.tp = false) (v : Word) :
    storedValue d v = unpack d.width (pack d.width v).pattern := by
  rw [storedValue, extracted, pad_truncate, Descriptor.seqLen, htp, if_neg Bool.false_ne_true, Nat.sub_self, pow_zero,
    Nat.div_one, Nat.mul_one]

theorem unpack_pack_w64 (v : Word) : unpack .w64 (pack .w64 v).pattern = v :=
  (BitVec.ofNat_toNat 64 v).trans v.setWidth_eq

theorem isNaN64_eq_false_of_finite {v : Word} (hv : exp64 v ≠ 2047) : isNaN64 v = false := by
  rw [isNaN64, decide_eq_false hv, Bool.false_and]

/-- Settles O51: nothing is rounded, dropped or padded at 64 bits. -/
theorem roundTripDouble : Obligations.RoundTripDouble := by
  unfold Obligations.RoundTripDouble
  intro s slot d hslot hw htp hfin
  have hv := isFinite64_iff.1 hfin
  have hstored : storedValue d s.opa = s.opa := by rw [storedValue_of_untruncated htp, hw, unpack_pack_w64]
  have herror : absError s.opa (storedValue d s.opa) = 0 := by rw [hstored, absError_self hv]
  have hovf : (pack d.width s.opa).ovf = false := by rw [hw]; rfl
  refine ⟨_, exec_decode_of_value hslot rfl (isNaN64_eq_false_of_finite hv) rfl, hstored, herror, ?_⟩
  rw [State.setStatus_status, decodeValue, hovf]
  rfl

/-! ### Decoding the stored value again (R117) -/

/-- A narrow value is its own nearest pattern. -/
theorem packedMag_of_operandMag_eq {w : NativeWidth} (hw : w ≠ .w64) {v : Word} {p : Nat}
    (h : operandMag v = magValue w p) : packedMag w v = p := by
  have hnear := (packedMag_nearest hw v p).1
  rw [h, sub_self, abs_zero] at hnear
  exact (magValue_strictMono w).injective (sub_eq_zero.1 (abs_nonpos_iff.1 hnear))

/-- Packing takes an unpacked native pattern that is no NaN back to itself, without overflow (R117). -/
theorem pack_unpack {w : NativeWidth} {p : Nat} (hp : p < 2 ^ w.bits) (hmag : nativeMag w p ≤ w.infMag) :
    pack w (unpack w p) = { pattern := p, ovf := false } := by
  by_cases hw : w = .w64
  · subst hw
    exact congrArg (Packed.mk · false) ((BitVec.toNat_ofNat p 64).trans (Nat.mod_eq_of_lt hp))
  rw [pack_of_narrow hw]
  obtain hfin | hinf := Nat.lt_or_eq_of_le hmag
  · obtain ⟨hsign, hexp, hval⟩ := unpack_finitePattern hp hfin
    rw [packNarrow_of_finite hexp, packFinite, hsign, packedMag_of_operandMag_eq hw hval, if_pos hfin,
      withSign_nativeSign_nativeMag hp]
  · obtain ⟨hsign, hexp, -⟩ := mk64_fields (s := nativeSign w p) (e := 2047) (f := 0) (by decide) (by decide)
    rw [unpack_of_infinite hp hinf, packNarrow_of_infinite hexp, hsign, ← hinf, withSign_nativeSign_nativeMag hp]

theorem truncate_pad (d : Descriptor) (s : Nat) : truncate d (pad d s) = s := by
  rw [truncate, pad, Nat.shiftLeft_shiftRight]

section
variable (d : Descriptor) {v : Word} (hv : isNaN64 v = false)
include hv

theorem pack_storedValue : pack d.width (storedValue d v) = { pattern := pad d (extracted d v), ovf := false } :=
  pack_unpack (padded_lt d hv) ((pad_truncate_mod_le d _).trans (pack_bounds d.width hv).2)

/-- The stored value has the operand's extracted sequence, so every field that is read off the sequence is the same. -/
theorem extracted_storedValue : extracted d (storedValue d v) = extracted d v := by
  rw [extracted, pack_storedValue d hv, truncate_pad]

theorem decodeValue_storedValue : decodeValue d (storedValue d v) =
    { decodeValue d v with error := absError (storedValue d v) (storedValue d v), ovf := false } := by
  have hstored : storedValue d (storedValue d v) = storedValue d v := by
    rw [storedValue, extracted_storedValue d hv, ← storedValue]
  rw [decodeValue, extracted_storedValue d hv, hstored, pack_storedValue d hv]
  rfl

end

/-- Settles O52: the second run reads the first one's sequence, and the stored value's error against itself. -/
theorem decodeIsIdempotent : Obligations.DecodeIsIdempotent := by
  unfold Obligations.DecodeIsIdempotent
  intro s slot d hslot _ hv
  refine ⟨_, _, exec_decode_of_value hslot rfl hv rfl,
    exec_decode_of_value hslot rfl (storedValue_not_nan d hv) (decodeValue_storedValue d hv),
    rfl, rfl, rfl, rfl, rfl, rfl, rfl, fun hfin => ?_, fun hinf => ?_, ?_, ?_⟩
  · exact absError_self (isFinite64_iff.1 hfin)
  · have hstored : isInf64 (storedValue d s.opa) = true := hinf
    exact (absError_of_infinite (by rw [hstored, Bool.true_or])).trans
      (absError_of_infinite (by rw [hstored, Bool.true_or])).symm
  · exact statusOVF_resultStatus false
  · rintro rfl hopa
    rw [hopa, decodeValue_d16_tenBillion]
    exact statusOVF_resultStatus true

/-! ### Truncation monotonicity (R118) -/

/-- Below an operand's packed magnitude the distance to the operand grows with every pattern down: the packed magnitude
is the nearest, and every pattern under it lies under the operand. -/
theorem dist_antitone_below_packedMag {w : NativeWidth} (hw : w ≠ .w64) (v : Word) {p q : Nat} (hle : p ≤ q)
    (hq : q ≤ packedMag w v) : |magValue w q - operandMag v| ≤ |magValue w p - operandMag v| := by
  obtain rfl | hlt := hq.eq_or_lt
  · exact (packedMag_nearest hw v p).1
  have hfloor : q ≤ floorMag w v := by
    obtain ⟨⟨hpack, -⟩ | ⟨hpack, -⟩, -⟩ := packedMag_cases hw v <;> omega
  have hmono := (magValue_strictMono w).monotone
  have hpq : magValue w p ≤ magValue w q := hmono hle
  have hbelow : magValue w q ≤ operandMag v := (hmono hfloor).trans (floorMag_bounds hw v).1
  rw [abs_of_nonpos (by linarith), abs_of_nonpos (by linarith)]
  linarith

section
variable {v sv : Word} {x y : ℚ} (hx : val64 v = some (.finite x)) (hy : val64 sv = some (.finite y))
  (h : representable64 (errorOrd v sv) = true)
include hx hy h

/-- An exact error, its sign bit being 0, is the magnitude pattern of the distance. -/
theorem magValue_toNat_absError : magValue .w64 (absError v sv).toNat = |x - y| := by
  have hval := (val64_eq_finite_iff.1 (val64_absError_of_representable hx hy h)).2
  have hmag : nativeMag .w64 (absError v sv).toNat = (absError v sv).toNat := by
    have hle := absError_le v sv
    rw [nativeMag, NativeWidth.bits]
    omega
  rw [← hmag, magValue_toNat, ← abs_abs (x - y), hval, abs_signed _ (operandMag_nonneg _)]

theorem absError_eq_zero_iff : absError v sv = 0 ↔ |x - y| = 0 := by
  rw [← magValue_toNat_absError hx hy h, ← magValue_zero .w64, (magValue_strictMono .w64).injective.eq_iff]
  exact BitVec.toNat_inj.symm

end

theorem packed_finite_of_not_ovf (w : NativeWidth) {v : Word} (hv : exp64 v ≠ 2047) (hovf : (pack w v).ovf = false) :
    nativeMag w (pack w v).pattern < w.infMag := by
  refine lt_of_le_of_ne (pack_bounds w (isNaN64_eq_false_of_finite hv)).2 fun hinf => ?_
  rw [(pack_ovf_iff_infinity w v).2 ⟨hv, hinf⟩] at hovf
  cases hovf

/-- The magnitude of the native pattern that `storedValue` unpacks. -/
def storedMag (d : Descriptor) (v : Word) : Nat := nativeMag d.width (pad d (extracted d v))

theorem storedMag_eq {d : Descriptor} (hd : d.valid = true) (v : Word) : storedMag d v =
    nativeMag d.width (pack d.width v).pattern / 2 ^ (d.width.bits - d.seqLen) * 2 ^ (d.width.bits - d.seqLen) := by
  rw [storedMag, nativeMag, extracted, pad_truncate, clear_low_mod _ _ _ (Descriptor.dropped_le hd), nativeMag]

theorem storedMag_le (d : Descriptor) (v : Word) : storedMag d v ≤ nativeMag d.width (pack d.width v).pattern :=
  nativeMag_pad_truncate_le d _

theorem clear_low_antitone (n : Nat) {j k : Nat} (h : j ≤ k) : n / 2 ^ k * 2 ^ k ≤ n / 2 ^ j * 2 ^ j := by
  obtain ⟨i, rfl⟩ := Nat.exists_eq_add_of_le h
  rw [pow_add, ← Nat.div_div_eq_div_mul, mul_comm (2 ^ j), ← mul_assoc]
  exact Nat.mul_le_mul_right _ (Nat.div_mul_le_self _ _)

/-- A longer sequence keeps more of the packed magnitude (R83). -/
theorem storedMag_le_of_seqLen_le {d d' : Descriptor} (hd : d.valid = true) (hd' : d'.valid = true)
    (hwidth : d.width = d'.width) (hlen : d.seqLen ≤ d'.seqLen) (v : Word) : storedMag d v ≤ storedMag d' v := by
  rw [storedMag_eq hd, storedMag_eq hd', hwidth]
  exact clear_low_antitone _ (Nat.sub_le_sub_left hlen _)

section
variable {d : Descriptor} (hd : d.valid = true) {v : Word} (hv : exp64 v ≠ 2047) (hovf : (pack d.width v).ovf = false)
include hd hv hovf

theorem storedValue_finitePattern : FinitePattern (storedValue d v) (sign64 v) (magValue d.width (storedMag d v)) := by
  have hfin := (storedMag_le d v).trans_lt (packed_finite_of_not_ovf d.width hv hovf)
  have hsign := (nativeSign_pad_truncate hd (pack d.width v).pattern).trans (nativeSign_pack d.width v)
  rw [← hsign]
  exact unpack_finitePattern (padded_lt d (isNaN64_eq_false_of_finite hv)) hfin

/-- The error of a finite operand that does not overflow, as the distance of two magnitudes (R102, R105). -/
theorem magValue_toNat_absError_storedValue (hkeep : d.keepsNativeExp = true) :
    magValue .w64 (absError v (storedValue d v)).toNat = |magValue d.width (storedMag d v) - operandMag v| := by
  have hstored := storedValue_finitePattern hd hv hovf
  have hrep := representable64_errorOrd_storedValue hd hkeep (isNaN64_eq_false_of_finite hv) hstored.exp
  rw [magValue_toNat_absError (val64_eq_finite_iff.2 ⟨hv, rfl⟩) hstored.val64_eq hrep, abs_signed_sub_signed,
    abs_sub_comm]

end

/-- Of two descriptors of one narrow width that keep its exponent field, the longer sequence does not have the larger
error. -/
theorem absError_storedValue_antitone {d d' : Descriptor} (hd : d.valid = true) (hd' : d'.valid = true)
    (hkeep : d.keepsNativeExp = true) (hkeep' : d'.keepsNativeExp = true) (hwidth : d.width = d'.width)
    (hw : d'.width ≠ .w64) (hlen : d.seqLen ≤ d'.seqLen) {v : Word} (hv : exp64 v ≠ 2047)
    (hovf : (pack d'.width v).ovf = false) :
    (absError v (storedValue d' v)).toNat ≤ (absError v (storedValue d v)).toNat := by
  have hpacked : storedMag d' v ≤ packedMag d'.width v := by
    rw [← nativeMag_pack_of_finite hw hv (packed_finite_of_not_ovf _ hv hovf)]
    exact storedMag_le d' v
  rw [← (magValue_strictMono .w64).le_iff_le, magValue_toNat_absError_storedValue hd' hv hovf hkeep',
    magValue_toNat_absError_storedValue hd hv (hwidth ▸ hovf) hkeep, hwidth]
  exact dist_antitone_below_packedMag hw v (storedMag_le_of_seqLen_le hd hd' hwidth hlen v) hpacked

/-- An operand is a value of the native width exactly when packing does not move it (R70). -/
theorem exists_valNative_eq_iff {w : NativeWidth} {v : Word} {x y : ℚ} (hx : val64 v = some (.finite x))
    (hovf : (pack w v).ovf = false) (hy : valNative w (pack w v).pattern = some (.finite y)) :
    (∃ p < 2 ^ w.bits, valNative w p = val64 v) ↔ |x - y| = 0 := by
  constructor
  · rintro ⟨p, hp, hval⟩
    obtain ⟨y', hy', hnear⟩ := packRoundsToNearestEven w v x hx hovf
    obtain rfl : y = y' := by rw [hy] at hy'; cases hy'; rfl
    have hle := (hnear p x hp (hval.trans hx)).1
    rw [sub_self, abs_zero, abs_sub_comm] at hle
    exact le_antisymm hle (abs_nonneg _)
  · intro h
    obtain rfl := sub_eq_zero.1 (abs_eq_zero.1 h)
    have hv := isNaN64_eq_false_of_finite (val64_eq_finite_iff.1 hx).1
    exact ⟨_, (pack_bounds w hv).1, hy.trans hx.symm⟩

/-- Without truncation the stored value has the value of the packed pattern (R84 to R86). -/
theorem val64_storedValue_of_untruncated {d : Descriptor} (htp : d.tp = false) {v : Word} (hv : isNaN64 v = false)
    {y : ℚ} (hy : valNative d.width (pack d.width v).pattern = some (.finite y)) :
    val64 (storedValue d v) = some (.finite y) := by
  have hval : valNative d.width (pack d.width v).pattern ≠ none := hy ▸ Option.some_ne_none _
  rw [storedValue_of_untruncated htp, reconstructionIsExact d.width _ (pack_bounds d.width hv).1 hval, hy]

/-- R118's example: the three errors of 0x3FB99999A0000000. -/
theorem absError_chain_example {v : Word} (h : v = 0x3FB99999A0000000) :
    absError v (storedValue ExampleSet.t16 v) = 0x3F3999A000000000 ∧
    absError v (storedValue ExampleSet.t19 v) = 0x3EF99A0000000000 ∧ absError v (storedValue ExampleSet.d32 v) = 0 := by
  subst h
  decide +kernel

/-- Settles O53: the three sequences grow in length, and the last one is the packed pattern, whose error is that of the
rounding. -/
theorem truncationMonotonicity : Obligations.TruncationMonotonicity := by
  unfold Obligations.TruncationMonotonicity
  intro s k16 k19 k32 h16 h19 h32 hfin hovf
  have hv := isFinite64_iff.1 hfin
  have hnan := isNaN64_eq_false_of_finite hv
  have hx : val64 s.opa = some (.finite (signed (sign64 s.opa) (operandMag s.opa))) := val64_eq_finite_iff.2 ⟨hv, rfl⟩
  have hpacked := packed_finite_of_not_ovf .w32 hv hovf
  have hy := valNative_eq_finite_iff.2 ⟨hpacked, rfl⟩
  have hsv := val64_storedValue_of_untruncated (d := ExampleSet.d32) rfl hnan hy
  have hrep := representable64_errorOrd_storedValue (d := ExampleSet.d32) (by decide) (by decide) hnan
    (val64_eq_finite_iff.1 hsv).1
  refine ⟨_, _, _, exec_decode_of_value h16 rfl hnan rfl, exec_decode_of_value h19 rfl hnan rfl,
    exec_decode_of_value h32 rfl hnan rfl, ?_, ?_, ?_, ?_, ⟨_, _, hx, hy, ?_⟩, absError_chain_example⟩
  · exact absError_storedValue_antitone (d := ExampleSet.t16) (d' := ExampleSet.t19) (by decide) (by decide) (by decide)
      (by decide) rfl (by decide) (by decide) hv hovf
  · exact absError_storedValue_antitone (d := ExampleSet.t19) (d' := ExampleSet.d32) (by decide) (by decide) (by decide)
      (by decide) rfl (by decide) (by decide) hv hovf
  · exact isFinite64_iff.2 (exp64_absError_of_finite hv
      (storedValue_finitePattern (d := ExampleSet.t16) (by decide) hv hovf).exp)
  · exact (absError_eq_zero_iff hx hsv hrep).trans (exists_valNative_eq_iff hx hovf hy).symm
  · exact val64_absError_of_representable hx hsv hrep

end Sys2Proof.Machine

/-! ## The command set as a whole (46_command_set_laws.md): no command reads old results, and inexactness is visible -/

namespace Sys2Proof.Machine

/-! ### Old results are not read (R167) -/

/-- A command answers as if `STATUS` and the result registers were 0 already: both completions start from
`clearResults` and end in `setStatus` (R131, R132), and the checks read neither. -/
theorem exec_clearResults_setStatus (i : Instr) (s : State) : exec i (s.clearResults.setStatus 0) = exec i s := by
  cases i with
  | descload slot => rfl
  | decode slot => rfl
  | classify => rfl

/-- Settles O22: with `STATUS` and the result registers cleared the two states are one. -/
theorem commandsIgnoreOldResults : Obligations.CommandsIgnoreOldResults := by
  unfold Obligations.CommandsIgnoreOldResults
  intro i s st a b c d e f g h
  rw [← exec_clearResults_setStatus i s]
  exact (exec_clearResults_setStatus i _).symm

/-! ### Inexactness is visible (R102, R162) -/

theorem freeError_ne_zero (n : Fin Config.freeErrorCount) : freeError n ≠ 0 := fun h =>
  (freeError_bounds n).1.ne' (congrArg BitVec.toNat h)

section
variable {v sv : Word} (hv : exp64 v ≠ 2047) (hsv : exp64 sv ≠ 2047)
include hv hsv

/-- Finite patterns are at distance 0 exactly when they have one value; +0 and -0 do. -/
theorem errorOrd_eq_zero_iff : errorOrd v sv = 0 ↔ val64 sv = val64 v := by
  have hunit : (2 : ℚ) ^ (-1074 : Int) ≠ 0 := by positivity
  rw [val64_eq_sord64 hv, val64_eq_sord64 hsv, Option.some_inj, Val.finite.injEq, mul_left_inj' hunit, Int.cast_inj,
    errorOrd, Int.natAbs_eq_zero, sub_eq_zero, eq_comm]

/-- Of finite inputs whose exact distance is no binary64 value the error is the free one (log 9). -/
theorem absError_of_not_representable (h : representable64 (errorOrd v sv) = false) :
    absError v sv = freeError (Config.errorOfInexactDifference v sv) := by
  rw [absError, isInf64_eq_false_of_finite hv, isInf64_eq_false_of_finite hsv, h]
  rfl

/-- The error of finite inputs is 0 exactly at distance 0: an exact error is the distance, and the free error is not 0
while the distance 0 has an exact one. -/
theorem absError_eq_zero_iff_errorOrd_eq_zero : absError v sv = 0 ↔ errorOrd v sv = 0 := by
  have hunit : (2 : ℚ) ^ (-1074 : Int) ≠ 0 := by positivity
  cases hrep : representable64 (errorOrd v sv) with
  | true =>
    have hx := val64_eq_sord64 hv
    have hy := val64_eq_sord64 hsv
    rw [absError_eq_zero_iff hx hy hrep, abs_sub_eq_errorOrd hx hy, mul_eq_zero_iff_right hunit, Nat.cast_eq_zero]
  | false =>
    rw [absError_of_not_representable hv hsv hrep]
    refine iff_of_false (freeError_ne_zero _) fun hzero => ?_
    rw [hzero] at hrep
    exact absurd hrep (by decide)

end

/-- The error of a finite stored value is 0 exactly when the operand has its value. An infinite operand has not, and its
error is +inf. -/
theorem absError_eq_zero_iff_val64_eq {v sv : Word} (hv : isNaN64 v = false) (hsv : exp64 sv ≠ 2047) :
    absError v sv = 0 ↔ val64 sv = val64 v := by
  by_cases hinf : exp64 v = 2047
  · have herr : absError v sv = 0x7FF0000000000000 :=
      absError_of_infinite (Bool.or_eq_true_iff.2 (.inr ((isInf64_iff hv).2 hinf)))
    refine iff_of_false (herr ▸ by decide) fun heq => ?_
    exact (val64_eq_finite_iff.1 (heq ▸ val64_eq_sord64 hsv)).1 hinf
  · exact (absError_eq_zero_iff_errorOrd_eq_zero hinf hsv).trans (errorOrd_eq_zero_iff hinf hsv)

/-- Settles O57: the error of a `DECODE` is that of its operand and its stored value. -/
theorem inexactnessIsVisible : Obligations.InexactnessIsVisible := by
  unfold Obligations.InexactnessIsVisible
  intro s slot d hslot hv
  exact ⟨_, exec_decode_of_value hslot rfl hv rfl, fun hfin => absError_eq_zero_iff_val64_eq hv (isFinite64_iff.1 hfin)⟩

end Sys2Proof.Machine

/-! ## Errors and completions (60_exceptions.md): the two ways a command ends, and what neither of them touches -/

namespace Sys2Proof.Machine

/-! ### The error completion (R126, R131) -/

/-- Settles O19: code by code, the shifted code is the `STATUS` word of R126. -/
theorem errorCompletionEffect : Obligations.ErrorCompletionEffect := by
  unfold Obligations.ErrorCompletionEffect
  intro s e
  cases e with
  | config => exact s.errorCompletion_eq .config
  | unsupported => exact s.errorCompletion_eq .unsupported
  | invalidInput => exact s.errorCompletion_eq .invalidInput
  | illegal => exact s.errorCompletion_illegal
  | slot => exact s.errorCompletion_slot
  | domain => exact s.errorCompletion_eq .domain

/-! ### No third outcome (R123, R132) -/

theorem loadStatus_eq : statusWord false 0 false = 0x000 := by decide

/-- The `STATUS` of a result is 0x001 with `OVF` beside it. -/
theorem resultStatus_eq_ovfBit (ovf : Bool) :
    statusWord true 0 ovf = statusWord true 0 ovf &&& 0x100 ||| 0x001 := by cases ovf <;> decide

/-- Settles O20: a command answers, and each command's answer is an error completion or its own success completion. -/
theorem commandsAlwaysComplete : Obligations.CommandsAlwaysComplete := by
  unfold Obligations.CommandsAlwaysComplete
  intro i s
  obtain ⟨t, ht⟩ := exec_answers i s
  refine ⟨t, ht, ?_⟩
  cases i with
  | descload slot =>
    obtain herror | ⟨w, -, -, -, rfl⟩ := execDescload_cases ht
    · exact .inl herror
    · exact .inr loadStatus_eq
  | decode slot =>
    obtain herror | ⟨d, -, -, rfl⟩ := execDecode_cases ht
    · exact .inl herror
    · exact .inr (resultStatus_eq_ovfBit _)
  | classify =>
    obtain herror | ⟨-, -, rfl⟩ := execClassify_cases ht
    · exact .inl herror
    · exact .inr (resultStatus_eq false)

/-! ### The frame of the commands (R124, R131, R167) -/

/-- What a command may read and never writes is the same in both states: the operand registers, the host's side of the
run and the number of slots. -/
structure State.SameInputs (s t : State) : Prop where
  opa : t.opa = s.opa
  dstg : t.dstg = s.dstg
  cexp : t.cexp = s.cexp
  cman : t.cman = s.cman
  cew : t.cew = s.cew
  cbias : t.cbias = s.cbias
  script : t.script = s.script
  observed : t.observed = s.observed
  ndesc : t.ndesc = s.ndesc

theorem State.errorCompletion_sameInputs (s : State) (e : ErrCode) : s.SameInputs (s.errorCompletion e) :=
  ⟨rfl, rfl, rfl, rfl, rfl, rfl, rfl, rfl, s.ndesc_errorCompletion e⟩

theorem exec_sameInputs {i : Instr} {s t : State} (ht : exec i s = .next t) : s.SameInputs t := by
  cases i with
  | descload slot =>
    obtain ⟨e, -, rfl⟩ | ⟨w, -, -, -, rfl⟩ := execDescload_cases ht
    · exact s.errorCompletion_sameInputs e
    · exact ⟨rfl, rfl, rfl, rfl, rfl, rfl, rfl, rfl, s.clearResults.ndesc_installSlot slot _⟩
  | decode slot =>
    obtain ⟨e, -, rfl⟩ | ⟨d, -, -, rfl⟩ := execDecode_cases ht
    · exact s.errorCompletion_sameInputs e
    · exact ⟨rfl, rfl, rfl, rfl, rfl, rfl, rfl, rfl, rfl⟩
  | classify =>
    obtain ⟨e, -, rfl⟩ | ⟨-, -, rfl⟩ := execClassify_cases ht
    · exact s.errorCompletion_sameInputs e
    · exact ⟨rfl, rfl, rfl, rfl, rfl, rfl, rfl, rfl, rfl⟩

theorem execDescload_keeps_other_slots {s t : State} {slot k : Nat} (hk : k ≠ slot)
    (ht : execDescload slot s = .next t) : t.descriptor? k = s.descriptor? k := by
  obtain ⟨e, -, rfl⟩ | ⟨w, hslot, -, -, rfl⟩ := execDescload_cases ht
  · exact s.descriptor?_errorCompletion e k
  · exact (s.clearResults.descriptor?_installSlot hslot _ k).trans (if_neg hk)

/-- A command leaves every slot alone but the one a `DESCLOAD` names. -/
theorem exec_keeps_unnamed_slots {i : Instr} {s t : State} {k : Nat} (hi : i ≠ .descload k)
    (ht : exec i s = .next t) : t.descriptor? k = s.descriptor? k := by
  cases i with
  | descload slot =>
    have hk : k ≠ slot := by
      rintro rfl
      exact hi rfl
    exact execDescload_keeps_other_slots hk ht
  | decode slot => exact State.descriptor?_congr (execDecode_table ht) k
  | classify => exact State.descriptor?_congr (execClassify_table ht) k

/-- Settles O21: the inputs of a command stay, and so do the slots it does not name. -/
theorem commandFrame : Obligations.CommandFrame := by
  unfold Obligations.CommandFrame
  intro i s t ht
  obtain ⟨hopa, hdstg, hcexp, hcman, hcew, hcbias, hscript, hobserved, hndesc⟩ := exec_sameInputs ht
  exact ⟨hopa, hdstg, hcexp, hcman, hcew, hcbias, hscript, hobserved, hndesc,
    fun k hi => exec_keeps_unnamed_slots hi ht⟩

/-! ### Every transaction with a meaning completes (R123, R159) -/

/-- No transaction touches the host's script or the number of slots, or takes back what the host has observed. -/
theorem transact_frame {x : Txn} {s t : State} (ht : transact x s = .next t) :
    t.script = s.script ∧ s.observed <+: t.observed ∧ t.ndesc = s.ndesc := by
  obtain ⟨n, r, -, -, rfl⟩ | ⟨n, v, r, -, -, -, rfl⟩ | ⟨v, i, -, -, hexec⟩ | ⟨v, e, -, -, rfl⟩ | ⟨-, rfl⟩ :=
    transact_cases ht
  · exact ⟨rfl, List.prefix_append _ _, rfl⟩
  · exact ⟨s.writeReg_script r v, s.writeReg_observed r v ▸ List.prefix_rfl, State.ndesc_congr (s.writeReg_table r v)⟩
  · have hsame := exec_sameInputs hexec
    exact ⟨hsame.script, hsame.observed ▸ List.prefix_rfl, hsame.ndesc⟩
  · exact ⟨rfl, List.prefix_rfl, s.ndesc_errorCompletion .illegal⟩
  · exact ⟨rfl, List.prefix_rfl, s.ndesc_resetEvent⟩

/-- Settles O11: a step performs the first transaction of the script, and the type of faults is empty. -/
theorem meaningfulTransactionsComplete : Obligations.MeaningfulTransactionsComplete := by
  unfold Obligations.MeaningfulTransactionsComplete
  refine ⟨fun s x rest hscript hmeaningful => ?_, fun s f => nomatch f⟩
  obtain ⟨t, ht⟩ := transact_answers hmeaningful { s with script := rest }
  exact ⟨t, (step_of_script hscript).trans ht, transact_frame ht⟩

end Sys2Proof.Machine

/-! ## Reset and runs (70_reset_and_hazards.md): one transaction a step, no latency between two of them, and the unit
right after reset -/

namespace Sys2Proof.Machine

/-! ### Steps (R149, R159) -/

/-- Where the next transaction is a `CMD` write and its word decodes, the step runs that command (R17). -/
theorem step_of_commandWord {s : State} {c : Word} {rest : List Txn} {i : Instr}
    (hscript : s.script = .write 8 c :: rest) (hc : decodeWord c = .ok i) :
    step s = exec i { s with script := rest } := by
  rw [step_of_script hscript, transact_write, regWrite_cmd, runCommandWord_ok hc]

theorem decodeTableWord_eq_some {nbits w : Nat} {i : Instr} (h : decodeTableWord nbits w = some i) :
    decodeWord (tableWord nbits w) = .ok i := by
  unfold decodeTableWord at h
  split at h
  next i' hi => cases h; exact hi
  next => cases h

/-- Settles O6: the first transaction is the one performed, and `withFetchWord` puts a `CMD` write in front. -/
theorem stepRunsDecodedCommand : Obligations.StepRunsDecodedCommand := by
  unfold Obligations.StepRunsDecodedCommand
  exact ⟨fun s x rest => step_of_script, fun s c rest i => step_of_commandWord,
    fun s nbits w i hi => step_of_commandWord (s := s.withFetchWord nbits w) rfl (decodeTableWord_eq_some hi)⟩

/-- Settles O7: the idle branch of the step. -/
theorem idleUnitDoesNothing : Obligations.IdleUnitDoesNothing := by
  unfold Obligations.IdleUnitDoesNothing
  intro s hscript
  simp only [step, hostStep, hscript]

/-! ### Runs of a script (R158) -/

/-- A run goes on after each step that answers a next state. -/
theorem run_succ_of_step {s t : State} (h : step s = .next t) (k : Nat) :
    Host.Core.run core (k + 1) s = Host.Core.run core k t := by
  have hstep : core.step s = .next t := h
  simp only [Host.Core.run, hstep]

/-- A script of meaningful transactions is performed to its end, by induction on the script. -/
theorem run_of_meaningful_script (l : List Txn) (hl : ∀ x ∈ l, x.meaningful = true) {s : State} (hs : s.script = l) :
    ∃ t : State, Host.Core.run core l.length s = .next t ∧ t.script = [] := by
  induction l generalizing s with
  | nil => exact ⟨s, rfl, hs⟩
  | cons x rest ih =>
    obtain ⟨hx, hrest⟩ := List.forall_mem_cons.1 hl
    obtain ⟨t, ht⟩ := transact_answers hx { s with script := rest }
    obtain ⟨hscript, -, -⟩ := transact_frame ht
    rw [List.length_cons, run_succ_of_step ((step_of_script hs).trans ht)]
    exact ih hrest hscript

/-- Settles O12: the script is the state's own. -/
theorem meaningfulScriptsRunToTheEnd : Obligations.MeaningfulScriptsRunToTheEnd := by
  unfold Obligations.MeaningfulScriptsRunToTheEnd
  exact fun s h => run_of_meaningful_script s.script h rfl

/-! ### A descriptor in effect at once (R38, R40, R157) -/

section
variable {s t : State} {rest : List Txn}

/-- A run starts with the operand write at the head of its script. -/
theorem run_wr {r : Reg} {v : Word} (hscript : s.script = Script.wr r v ++ rest) (hr : r.access = .readWrite)
    (k : Nat) : Host.Core.run core (k + 1) s = Host.Core.run core k ({ s with script := rest }.writeReg r v) :=
  run_succ_of_step ((step_of_script hscript).trans (regWrite_operand (Reg.ofNum?_num r) hr v)) k

/-- A run starts with the command at the head of its script. -/
theorem run_command {i : Instr} (hscript : s.script = Script.command i ++ rest) (hi : i.wf = true)
    (ht : exec i { s with script := rest } = .next t) (k : Nat) :
    Host.Core.run core (k + 1) s = Host.Core.run core k t :=
  run_succ_of_step ((step_of_script hscript).trans ((transact_write_encode hi _).trans ht)) k

end

/-- The fields of a descriptor lie outside the hardwired bits of `DSTG`, 7, 15 and 31 (R14, R48). -/
theorem stagedDescriptor_and_usedBits (w : NativeWidth) (v : Word) :
    stagedDescriptor w (v &&& Reg.usedBits .dstg) = stagedDescriptor w v := by
  have hfield (lo width : Nat) (hones : (Reg.usedBits .dstg).extractLsb' lo width = BitVec.allOnes width) :
      (v &&& Reg.usedBits .dstg).extractLsb' lo width = v.extractLsb' lo width := by
    rw [BitVec.extractLsb'_and, hones, BitVec.and_allOnes]
  have htp : dstgTP (v &&& Reg.usedBits .dstg) = dstgTP v := by
    rw [dstgTP, BitVec.getLsbD_and, show (Reg.usedBits .dstg).getLsbD 23 = true by decide, Bool.and_true, dstgTP]
  rw [stagedDescriptor, stagedDescriptor, htp, dstgEW, dstgMW, dstgT, dstgBias, hfield 8 7 (by decide),
    hfield 16 7 (by decide), hfield 24 7 (by decide), hfield 32 32 (by decide)]
  rfl

section
variable {s : State} {k : Nat} {d : Descriptor} {x : Word}
  (hfits : k < 16) (hopa : s.opa = x) (hnan : isNaN64 x = false)
include hfits hopa hnan

/-- A lone `DECODE k` ends with the stored value under the descriptor of its slot, which stays (R113, R115). -/
theorem run_decode (hscript : s.script = Script.decode k) (hd : s.descriptor? k = some d) :
    ∃ t : State, Host.Core.run core 1 s = .next t ∧ t.script = [] ∧ statusRV t.status = true ∧
      t.rsv = storedValue d x ∧ t.descriptor? k = some d := by
  have hdecode := exec_decode_of_value (s := { s with script := [] }) hd hopa hnan rfl
  exact ⟨_, run_command hscript (decide_eq_true hfits) hdecode 0, rfl, statusRV_resultStatus _, rfl, hd⟩

/-- `DESCLOAD k` and `DECODE k` in a row: the decode finds the descriptor just loaded. -/
theorem run_descload_decode {w : NativeWidth} (hscript : s.script = Script.descload k ++ Script.decode k)
    (hslot : k < s.ndesc) (hempty : s.slotValid k = false) (hvalid : validate s.dstg = .ok w) :
    ∃ t : State, Host.Core.run core 2 s = .next t ∧ t.script = [] ∧ statusRV t.status = true ∧
      t.rsv = storedValue (stagedDescriptor w s.dstg) x ∧ t.descriptor? k = some (stagedDescriptor w s.dstg) := by
  have hloaded := s.clearResults.descriptor?_installSlot hslot (stagedDescriptor w s.dstg) k
  rw [if_pos rfl] at hloaded
  rw [run_command hscript (decide_eq_true hfits) (execDescload_success hslot hempty hvalid) 1]
  exact run_decode hfits hopa hnan rfl hloaded

end

/-- Settles O15: two operand writes, which leave the table alone, stage what the two commands then use. -/
theorem loadedDescriptorIsUsedAtOnce : Obligations.LoadedDescriptorIsUsedAtOnce := by
  unfold Obligations.LoadedDescriptorIsUsedAtOnce
  intro s k v x w hfits hslot hempty hvalid hnan
  rw [run_wr rfl rfl, run_wr rfl rfl, ← stagedDescriptor_and_usedBits w v]
  exact run_descload_decode hfits (and_usedBits_of_full rfl x) hnan rfl hslot hempty hvalid

/-! ### The reset event (R150) -/

theorem State.slotValid_resetOf (ndesc k : Nat) : (State.resetOf ndesc).slotValid k = false := by
  rw [State.slotValid_eq_isSome, State.descriptor?_resetOf]
  rfl

theorem State.slotValid_resetEvent (s : State) (k : Nat) : s.resetEvent.slotValid k = false :=
  State.slotValid_resetOf s.ndesc k

theorem State.dvalid_resetEvent (s : State) : s.resetEvent.dvalid = 0 := State.dvalid_resetOf s.ndesc

/-- Settles O16: the reset event leaves the registers and the table of the reset state. -/
theorem resetEventClearsUnit : Obligations.ResetEventClearsUnit := by
  unfold Obligations.ResetEventClearsUnit
  exact fun s => ⟨s.resetEvent, rfl, rfl, rfl, rfl, rfl, rfl, rfl, s.slotValid_resetEvent, rfl, rfl, rfl, rfl, rfl, rfl,
    rfl, rfl, rfl, s.dvalid_resetEvent⟩

/-! ### Commands right after reset (R151) -/

/-- The all-zero `DSTG` fails the width sum: 0 ≠ 1 + 0 + 0. -/
theorem validate_zero : validate 0 = .error .config := validate_of_inconsistent (by decide)

theorem execDescload_resetOf (ndesc k : Nat) : execDescload k (State.resetOf ndesc) =
    .next { State.resetOf ndesc with status := if ndesc ≤ k then 0x050 else 0x010 } := by
  have hndesc := State.ndesc_resetOf ndesc
  split_ifs with h
  · exact execDescload_of_ndesc_le (hndesc.trans_le h)
  · exact execDescload_of_validate_error ((Nat.lt_of_not_le h).trans_eq hndesc.symm) (State.slotValid_resetOf ndesc k)
      validate_zero

/-- Settles O18: every slot is empty, the classified fields are those of zero, and `DSTG` is no descriptor. The result
registers are 0 already, so clearing them does not show. -/
theorem freshUnitCommands : Obligations.FreshUnitCommands := by
  unfold Obligations.FreshUnitCommands
  intro ndesc
  exact ⟨fun k => execDecode_of_not_slotValid (State.slotValid_resetOf ndesc k),
    execClassify_success (s := State.resetOf ndesc) (Nat.zero_le 63) Nat.one_pos, execDescload_resetOf ndesc⟩

end Sys2Proof.Machine
